-- ==== Sys2Proof/Word.lean ====
section
/-! DEFINITION. Word types: the widths the spec gives to bytes, register words and block addresses
(00_scope.md R12, 20_memory.md R45). -/

namespace Sys2Proof

/-- One byte, the smallest addressable unit (00_scope.md R12). -/
abbrev Byte := BitVec 8

/-- A 16-bit value: the CRC working register, a frame index (10_state.md R21, R29). -/
abbrev Half := BitVec 16

/-- A 32-bit register or command word (10_state.md R15, 30_encoding.md R64). -/
abbrev Word := BitVec 32

/-- A 22-bit block byte address (`ADDR_WIDTH`, 20_memory.md R45). -/
abbrev Addr := BitVec 22

end Sys2Proof
end

