-- ==== Sys2Proof/Syntax.lean ====
section
/-! DEFINITION. Syntax: the eleven commands of 30_encoding.md R65, one constructor per row of
spec/opcode_table.json, each operand at the width 30_encoding.md R66 gives it. -/

namespace Sys2Proof

/-- A command of the engine (30_encoding.md R65). Operands that come from registers (DATA_LEN, RAW_OFF,
RAW_LEN) are no part of it. -/
inductive Instr where
  /-- NOP, 44_control.md R96. -/
  | nop
  /-- CRC_INIT, 40_crc.md R74. -/
  | crcInit
  /-- CRC_BYTE, 40_crc.md R75. -/
  | crcByte (byte : BitVec 8)
  /-- FN_CLEAR, 41_header.md R78. -/
  | fnClear
  /-- FN_PUSH, 41_header.md R80. -/
  | fnPush (byte : BitVec 8)
  /-- HDR_BUILD, 41_header.md R81. -/
  | hdrBuild
  /-- PLAN, 42_sequencer.md R86. -/
  | plan
  /-- FRAME_INFO, 42_sequencer.md R89. -/
  | frameInfo (index : BitVec 16)
  /-- PKT_BUILD, 43_packet.md R91. -/
  | pktBuild (index : BitVec 16)
  /-- PKT_RAW, 43_packet.md R93. -/
  | pktRaw (role : BitVec 2)
  /-- SOFT_RESET, 44_control.md R97. -/
  | softReset
deriving DecidableEq, Repr

end Sys2Proof
end

