-- ==== Sys2Proof/Decode.lean ====
section
/-! DEFINITION. Decode: the decoder of a 32-bit command word (30_encoding.md R63 to R69), total, rejecting by name,
and the encoder written from the same opcode map. -/

namespace Sys2Proof

/-- The two decode errors (30_encoding.md R67, R68). Both are defined hardware results: the engine step turns
them into a CmdError. -/
inductive DecodeError where
  /-- `ILLEGAL_CMD`: the OPC byte is unassigned (R68). -/
  | illegalCmd
  /-- `BAD_ARG`: a reserved ARG bit is 1 (R67). -/
  | badArg
deriving DecidableEq, Repr

/-- The eleven assigned opcodes (30_encoding.md R65). -/
inductive Opcode where
  | nop
  | crcInit
  | crcByte
  | fnClear
  | fnPush
  | hdrBuild
  | plan
  | frameInfo
  | pktBuild
  | pktRaw
  | softReset
deriving DecidableEq, Repr

/-- The assigned opcodes in the order of 30_encoding.md R65. -/
def Opcode.all : List Opcode :=
  [.nop, .crcInit, .crcByte, .fnClear, .fnPush, .hdrBuild, .plan, .frameInfo, .pktBuild, .pktRaw, .softReset]

/-- The OPC byte of each opcode (30_encoding.md R65). -/
def Opcode.byte : Opcode → BitVec 8
  | .nop => 0x00
  | .crcInit => 0x01
  | .crcByte => 0x02
  | .fnClear => 0x10
  | .fnPush => 0x11
  | .hdrBuild => 0x12
  | .plan => 0x20
  | .frameInfo => 0x21
  | .pktBuild => 0x30
  | .pktRaw => 0x31
  | .softReset => 0xFF

/-- `ARG_MASK` of each opcode: the ARG bits it uses (30_encoding.md R65). -/
def Opcode.argMask : Opcode → BitVec 24
  | .nop => 0x000000
  | .crcInit => 0x000000
  | .crcByte => 0x0000FF
  | .fnClear => 0x000000
  | .fnPush => 0x0000FF
  | .hdrBuild => 0x000000
  | .plan => 0x000000
  | .frameInfo => 0x00FFFF
  | .pktBuild => 0x00FFFF
  | .pktRaw => 0x000003
  | .softReset => 0x000000

/-- The opcode an OPC byte stands for, if it is assigned (30_encoding.md R65, R68). -/
def Opcode.ofByte (opc : BitVec 8) : Option Opcode :=
  Opcode.all.find? (fun o => o.byte == opc)

/-- The command with its operands taken from ARG, zero-extended and unscaled (30_encoding.md R66). -/
def Opcode.instr (arg : BitVec 24) : Opcode → Instr
  | .nop => .nop
  | .crcInit => .crcInit
  | .crcByte => .crcByte (arg.extractLsb' 0 8)
  | .fnClear => .fnClear
  | .fnPush => .fnPush (arg.extractLsb' 0 8)
  | .hdrBuild => .hdrBuild
  | .plan => .plan
  | .frameInfo => .frameInfo (arg.extractLsb' 0 16)
  | .pktBuild => .pktBuild (arg.extractLsb' 0 16)
  | .pktRaw => .pktRaw (arg.extractLsb' 0 2)
  | .softReset => .softReset

/-- `opc <- w[31:24]` (30_encoding.md R63, R64). -/
def opcField (w : BitVec 32) : BitVec 8 := w.extractLsb' 24 8

/-- `arg <- w[23:0]` (30_encoding.md R63, R64). -/
def argField (w : BitVec 32) : BitVec 24 := w.extractLsb' 0 24

/-- The decoder: the opcode check, then the reserved-bit check (30_encoding.md R63, R69). -/
def decode (w : BitVec 32) : Except DecodeError Instr :=
  match Opcode.ofByte (opcField w) with
  | none => .error .illegalCmd
  | some o =>
    if argField w &&& ~~~o.argMask ≠ 0 then .error .badArg
    else .ok (o.instr (argField w))

/-- The opcode of a command (30_encoding.md R65). -/
def Instr.opcode : Instr → Opcode
  | .nop => .nop
  | .crcInit => .crcInit
  | .crcByte _ => .crcByte
  | .fnClear => .fnClear
  | .fnPush _ => .fnPush
  | .hdrBuild => .hdrBuild
  | .plan => .plan
  | .frameInfo _ => .frameInfo
  | .pktBuild _ => .pktBuild
  | .pktRaw _ => .pktRaw
  | .softReset => .softReset

/-- The ARG field of a command: its operand in the low bits, every other bit 0 (30_encoding.md R66, R67). -/
def Instr.arg : Instr → BitVec 24
  | .nop => 0
  | .crcInit => 0
  | .crcByte byte => byte.setWidth 24
  | .fnClear => 0
  | .fnPush byte => byte.setWidth 24
  | .hdrBuild => 0
  | .plan => 0
  | .frameInfo index => index.setWidth 24
  | .pktBuild index => index.setWidth 24
  | .pktRaw role => role.setWidth 24
  | .softReset => 0

/-- The encoder: OPC in bits 31:24, ARG in bits 23:0 (30_encoding.md R64). -/
def encode (i : Instr) : BitVec 32 := i.opcode.byte ++ i.arg

/-- The full-word pattern of an opcode, `match = OPC << 24` (30_encoding.md R65). -/
def Opcode.pattern (o : Opcode) : BitVec 32 := o.byte ++ 0#24

/-- The full-word mask of an opcode, `0xFF000000 | (~ARG_MASK & 0x00FFFFFF)` (30_encoding.md R65). -/
def Opcode.mask (o : Opcode) : BitVec 32 := 0xFF#8 ++ ~~~o.argMask

/-- What the decoder reads from a table word of `nbits` bits. The command is one 32-bit register value, which has no
byte order of its own (20_memory.md R50), so no bytes are laid out; bits from `nbits` up are 0, and a row wider than the one
32-bit format (30_encoding.md R64) has no word. -/
def decodeTableWord (nbits w : Nat) : Option Instr :=
  if nbits ≤ 32 then
    match decode (BitVec.ofNat 32 (w % 2 ^ nbits)) with
    | .ok i => some i
    | .error _ => none
  else none

end Sys2Proof
end

