-- ==== Sys2Proof/Config.lean ====
section
/-! DEFINITION. Config: the protocol constants the spec fixes (00_scope.md R6 to R11), the names of the
frame roles, and the two values it leaves open, as opaque constants with no body. -/

namespace Sys2Proof

/-- The frame roles (00_scope.md R10). Their codes are `FrameRole.code` in Machine/Operands.lean. -/
inductive FrameRole where
  | first
  | middle
  | last
  | single
deriving DecidableEq, Repr

/-- `TYPE_TAG` (00_scope.md R11, 43_packet.md R94): hardwired, its number in no source, so a constant
without a body. DESIGN CHOICE (log 4), safe: every claim holds for every tag. -/
opaque Config.typeTag : Byte

/-- `CMD_LATENCY` (00_scope.md R11, 70_reset_and_hazards.md R122): how many host accesses pass between the
`n`-th CMD write and the engine step that completes it, finite for every `n`. A constant without a body.
DESIGN CHOICE (log 3), safe. -/
opaque Config.cmdLatency : Nat → Nat

/-- `PLACEHOLDER`, the byte stored for a non-ASCII filename byte (00_scope.md R11). UNVERIFIED (log 5), unsafe. -/
def Config.placeholder : Byte := 0x3F

/-- `ID_VALUE` (00_scope.md R2, R11). -/
def Config.idValue : Word := 0x42535231

/-- `CRC_INIT` (00_scope.md R6). -/
def Config.crcInit : Half := 0xFFFF

/-- `CRC_POLY` (00_scope.md R6). -/
def Config.crcPoly : Half := 0x8408

/-- `CRC_XOROUT` (00_scope.md R6). -/
def Config.crcXorOut : Half := 0xFFFF

/-- `SIZE_MAX` (00_scope.md R7). -/
def Config.sizeMax : Nat := 0x1FFFFF

/-- `SRC_BYTES` (00_scope.md R11). -/
def Config.srcBytes : Nat := 0x200000

/-- `PAYLOAD_MAX` (00_scope.md R8). -/
def Config.payloadMax : Nat := 219

/-- `HDR_LEN` (00_scope.md R7). -/
def Config.headerLen : Nat := 55

/-- `FN_FIELD_LEN` (00_scope.md R7). -/
def Config.nameFieldLen : Nat := 50

/-- `SINGLE_MAX` (00_scope.md R9). -/
def Config.singleMax : Nat := 163

/-- `FIRST_DATA_MAX` (00_scope.md R9). -/
def Config.firstDataMax : Nat := 163

/-- `MID_DATA_MAX` (00_scope.md R9). -/
def Config.midDataMax : Nat := 219

end Sys2Proof
end

