-- ==== Sys2Proof/Machine/Bus.lean ====
section
/-! DEFINITION. Bus: what the host can do at the block's boundary (20_memory.md R46, 30_encoding.md R71,
70_reset_and_hazards.md R111) and what a read gives back. -/

namespace Sys2Proof.Machine

/-- One action of the host agent. `size` is in bytes; 20_memory.md R46 admits 1 and 4, any other is refused
when the action is done. -/
inductive HostAction where
  /-- `HostRead(a, size)` (20_memory.md R46): `R32` and `R8` of 30_encoding.md R71. -/
  | read (addr : Addr) (size : Nat)
  /-- `HostWrite(a, size, v)` (20_memory.md R46): `W32` and `W8` of 30_encoding.md R71. A byte write stores
  `value[7:0]` (20_memory.md R55). -/
  | write (addr : Addr) (size : Nat) (value : Word)
  /-- `WAIT` (30_encoding.md R71): poll STATUS until BUSY reads 0. -/
  | wait
  /-- The block's reset input is asserted (70_reset_and_hazards.md R111). DEDUCED (log 11). -/
  | powerOn
deriving DecidableEq, Repr

/-- What a host read returns: a `8*size`-bit value (20_memory.md R46). -/
inductive HostValue where
  | byte (value : Byte)
  | word (value : Word)
deriving DecidableEq, Repr

end Sys2Proof.Machine
end

