-- ==== Sys2Proof/Machine/State.lean ====
section
/-! DEFINITION. State: every piece of state the spec gives the block (10_state.md R15 to R44), the model's own fields for
the host agent, the ways a step can stop, and the state after power-on reset (70_reset_and_hazards.md R111). -/

namespace Sys2Proof.Machine

/-- SRC (10_state.md R41): the written bytes as (offset, byte) pairs, offsets strictly rising and below `SRC_BYTES`
(`Memory.wf`). An offset not listed is unwritten and has no value (log 6). -/
abbrev Memory := List Host.Cell

/-- The plan registers that PLAN writes and a DATA_LEN write clears (10_state.md R20, R25 to R28). -/
structure PlanRegs where
  /-- PLAN_MODE (R25): 0 no plan, 1 SINGLE, 2 MULTI. -/
  mode : BitVec 2
  /-- FRAME_COUNT (R26). -/
  frameCount : BitVec 16
  /-- PASS_COUNT (R27). -/
  passCount : BitVec 2
  /-- LAST_DATA_LEN (R28). -/
  lastDataLen : BitVec 8
deriving DecidableEq, Repr

/-- The FRM_ registers (10_state.md R29 to R33). -/
structure FrameRegs where
  /-- FRM_INDEX (R29). -/
  index : BitVec 16
  /-- FRM_ROLE (R30). -/
  role : BitVec 2
  /-- FRM_DATA_OFF (R31). -/
  dataOff : BitVec 21
  /-- FRM_DATA_LEN (R32). -/
  dataLen : BitVec 8
  /-- FRM_PAYLOAD_LEN (R33). -/
  payloadLen : BitVec 8
deriving DecidableEq, Repr

/-- The fields of PKT_INFO (10_state.md R36). -/
structure PktInfo where
  /-- PI_INDEX. -/
  index : BitVec 16
  /-- PI_PAYLOAD_LEN. -/
  payloadLen : BitVec 8
  /-- PI_ROLE. -/
  role : BitVec 2
deriving DecidableEq, Repr

/-- The whole machine (10_state.md R15). ID, CMD, CRC_OUT, STATUS.BUSY and STATUS.PLAN_VALID hold no storage of
their own and are computed where they are read (log 10). -/
structure State where
  /-- The command latch PENDING (R42). -/
  pending : Option (BitVec 32)
  /-- STATUS.HDR_VALID (R19). -/
  hdrValid : Bool
  /-- STATUS.PKT_VALID (R19). -/
  pktValid : Bool
  /-- STATUS.FN_TRUNC (R19). -/
  fnTrunc : Bool
  /-- STATUS.ERR_STICKY (R19). -/
  errSticky : Bool
  /-- STATUS.ERR_CODE (R19). -/
  errCode : BitVec 8
  /-- DATA_LEN (R20). -/
  dataLen : BitVec 32
  /-- CRC_STATE (R21), the one accumulator. -/
  crcState : BitVec 16
  /-- FN_LEN (R23). -/
  fnLen : BitVec 6
  /-- FN_CRC (R24). -/
  fnCrc : BitVec 16
  /-- PLAN_MODE, FRAME_COUNT, PASS_COUNT, LAST_DATA_LEN (R25 to R28). -/
  plan : PlanRegs
  /-- FRM_INDEX to FRM_PAYLOAD_LEN (R29 to R33). -/
  frame : FrameRegs
  /-- RAW_OFF (R34). -/
  rawOff : BitVec 21
  /-- RAW_LEN (R35). -/
  rawLen : BitVec 32
  /-- PKT_INFO (R36). -/
  pktInfo : PktInfo
  /-- FNBUF (R38). -/
  fnbuf : Vector (BitVec 8) 50
  /-- HDRBUF (R39). -/
  hdrbuf : Vector (BitVec 8) 55
  /-- PKTBUF (R40). -/
  pktbuf : Vector (BitVec 8) 221
  /-- SRC (R41). -/
  src : Memory
  /-- The model's own: the actions the host has still to do, the next one first (00_scope.md R5). -/
  hostQueue : List HostAction
  /-- The model's own: the values the host's reads returned, oldest first (70_reset_and_hazards.md R123). -/
  hostReads : List HostValue
  /-- The model's own: how many more host accesses may come before the engine runs the latched command
  (`CMD_LATENCY`, 70_reset_and_hazards.md R122). -/
  pollsLeft : Nat
  /-- The model's own: how many commands the host has written, the argument of `Config.cmdLatency`. -/
  cmdCount : Nat
deriving DecidableEq, Repr

/-- Why the machine stops (60_exceptions.md R106, R107). Every one is safe: the model stops where a chip would go on with a
result no source gives. -/
inductive Fault where
  /-- HostFault(RegByteAccess): an 8-bit access to REG (20_memory.md R47). Raised by `hostRead` and `hostWrite`. Safe. -/
  | regByteAccess
  /-- HostFault(Misaligned): a 32-bit access with `a[1:0] != 0` (20_memory.md R49). Raised by `hostRead` and `hostWrite`. Safe. -/
  | misaligned
  /-- HostFault: any access but a 32-bit read of STATUS while BUSY (70_reset_and_hazards.md R121). Raised by `hostRead` and
  `hostWrite`. Safe. -/
  | busyAccess
  /-- HostFault: a size other than 1 or 4 bytes (20_memory.md R46; the name is the model's, log 8). Raised by `hostRead` and
  `hostWrite`. Safe. -/
  | badSize
  /-- ModelFault(UnwrittenSrcRead): an SRC byte unwritten since power-on is read (60_exceptions.md R107). Raised by `hostRead`,
  `execPktBuild` and `execPktRaw`. Safe. -/
  | unwrittenSrcRead
deriving DecidableEq, Repr

/-- Why the model gives no meaning. No arm of `exec` answers with it: every command is modelled. -/
inductive Refusal where
  /-- The instruction of that mnemonic has no meaning yet. Raised only by an arm of `exec`. Safe. -/
  | notModelled (mnemonic : String)
deriving DecidableEq, Repr

/-- The state after power-on reset (70_reset_and_hazards.md R111, with the values of 10_state.md R17 to R42). The model's own four
fields start empty and at 0 (log 1, DESIGN CHOICE). -/
def State.reset : State where
  pending := none
  hdrValid := false
  pktValid := false
  fnTrunc := false
  errSticky := false
  errCode := 0
  dataLen := 0
  crcState := 0xFFFF
  fnLen := 0
  fnCrc := 0
  plan := { mode := 0, frameCount := 0, passCount := 0, lastDataLen := 0 }
  frame := { index := 0, role := 0, dataOff := 0, dataLen := 0, payloadLen := 0 }
  rawOff := 0
  rawLen := 0
  pktInfo := { index := 0, payloadLen := 0, role := 0 }
  fnbuf := Vector.replicate 50 0
  hdrbuf := Vector.replicate 55 0
  pktbuf := Vector.replicate 221 0
  src := []
  hostQueue := []
  hostReads := []
  pollsLeft := 0
  cmdCount := 0

end Sys2Proof.Machine
end

