-- ==== Sys2Proof/Machine/Flags.lean ====
section
/-! DEFINITION. Flags: the error codes (60_exceptions.md R98) and every field of STATUS (10_state.md R19), how it
is read and what a write to it does. -/

namespace Sys2Proof.Machine

/-- The command errors (60_exceptions.md R98). -/
inductive CmdError where
  | emptyFile
  | sizeLimit
  | notReady
  | badIndex
  | illegalCmd
  | badArg
  | srcRange
deriving DecidableEq, Repr

/-- The ERR_CODE value of each error (60_exceptions.md R98). -/
def CmdError.code : CmdError → BitVec 8
  | .emptyFile => 0x01
  | .sizeLimit => 0x02
  | .notReady => 0x03
  | .badIndex => 0x04
  | .illegalCmd => 0x05
  | .badArg => 0x06
  | .srcRange => 0x07

/-- The command error a decode error ends in (30_encoding.md R67, R68). -/
def CmdError.ofDecode : DecodeError → CmdError
  | .illegalCmd => .illegalCmd
  | .badArg => .badArg

/-- STATUS.BUSY: 1 exactly when the command latch is non-empty (10_state.md R42). -/
def State.busy (s : State) : Bool := s.pending.isSome

/-- STATUS.PLAN_VALID: 1 exactly when PLAN_MODE is not 0 (10_state.md R19). -/
def State.planValid (s : State) : Bool := s.plan.mode != 0

/-- The STATUS word, its fields at the bits of 10_state.md R19 and the reserved bits 0. -/
def State.status (s : State) : BitVec 32 :=
  0#16 ++ s.errCode ++ BitVec.ofBool s.errSticky ++ 0#2 ++ BitVec.ofBool s.fnTrunc ++
    BitVec.ofBool s.pktValid ++ BitVec.ofBool s.planValid ++ BitVec.ofBool s.hdrValid ++ BitVec.ofBool s.busy

/-- A host write of `v` to STATUS: writing 1 to bit 7 clears ERR_STICKY; nothing else changes (10_state.md R19). -/
def writeStatus (v : BitVec 32) (s : State) : State :=
  { s with errSticky := s.errSticky && !v.getLsbD 7 }

/-- What ends a command that raised nothing: ERR_CODE reads 0x00 and ERR_STICKY is left alone (30_encoding.md R63). -/
def succeed (s : State) : State := { s with errCode := 0 }

end Sys2Proof.Machine
end

