-- ==== Sys2Proof/Machine/Ops.lean ====
section
/-! DEFINITION. Ops: the named operations over SRC and the registers that the meanings share, and the block's one form
of exception, `raiseCmdError` (60_exceptions.md R99). The block takes no trap and has no return from one (R104). -/

namespace Sys2Proof.Machine

/-- The value of the SRC byte at `offset`, or none while it is unwritten (10_state.md R41). -/
def Memory.read : Memory → Nat → Option (BitVec 8)
  | [], _ => none
  | (k, b) :: m, offset => if k = offset then some b else Memory.read m offset

/-- `SRC[offset] <- b`, keeping the offsets strictly rising (10_state.md R41, 20_memory.md R55). -/
def Memory.write (offset : Nat) (b : BitVec 8) : Memory → Memory
  | [] => [(offset, b)]
  | (k, c) :: m =>
    if offset < k then (offset, b) :: (k, c) :: m
    else if offset = k then (k, b) :: m
    else (k, c) :: Memory.write offset b m

/-- `MemRead(SRC, offset, n)` (00_scope.md R13): the `n` bytes from `offset`, or none when one of them is unwritten. -/
def Memory.readRange (m : Memory) : Nat → Nat → Option (List (BitVec 8))
  | _, 0 => some []
  | offset, n + 1 =>
    match m.read offset, Memory.readRange m (offset + 1) n with
    | some b, some bs => some (b :: bs)
    | _, _ => none

/-- Every offset is at least `low`, the offsets rise strictly, and all are below `SRC_BYTES`. -/
def Memory.wfFrom : Nat → Memory → Bool
  | _, [] => true
  | low, (k, _) :: m => low ≤ k && k < Config.srcBytes && Memory.wfFrom (k + 1) m

/-- The canonical form of SRC: offsets strictly rising and below `SRC_BYTES` (10_state.md R41). An unlisted offset has no
value, so no listed pair can equal what it reads as. -/
def Memory.wf (m : Memory) : Bool := Memory.wfFrom 0 m

/-- `raise CmdError(e)` (60_exceptions.md R99): ERR_CODE and ERR_STICKY are written and nothing else. -/
def raiseCmdError (e : CmdError) (s : State) : State :=
  { s with errCode := e.code, errSticky := true }

/-- `PENDING <- empty`, the first act of the engine step (30_encoding.md R63). What was left of the latency is dropped (log 3). -/
def takeCommand (s : State) : State := { s with pending := none, pollsLeft := 0 }

/-- A CMD write: the word is latched, so BUSY reads 1 (10_state.md R18). The latency of this command is the free value
`Config.cmdLatency` at the number of commands written before it (log 3). -/
def latchCommand (w : BitVec 32) (s : State) : State :=
  { s with pending := some w, pollsLeft := Config.cmdLatency s.cmdCount, cmdCount := s.cmdCount + 1 }

/-- No plan: the four plan registers at 0 (10_state.md R20, R43). -/
def PlanRegs.none : PlanRegs := { mode := 0, frameCount := 0, passCount := 0, lastDataLen := 0 }

/-- A host write of `v` to DATA_LEN: the value is stored and the header and the plan become invalid, all at once
(10_state.md R20). -/
def setDataLen (v : BitVec 32) (s : State) : State :=
  { s with dataLen := v, hdrValid := false, plan := PlanRegs.none }

/-- PKTBUF, PKT_VALID and PKT_INFO written together, as PKT_BUILD and PKT_RAW do (43_packet.md R91, R93). -/
def storePacket (packet : Vector (BitVec 8) 221) (info : PktInfo) (s : State) : State :=
  { s with pktbuf := packet, pktValid := true, pktInfo := info }

/-- Every register and buffer but SRC at its reset value (44_control.md R97, 70_reset_and_hazards.md R111). The command latch is
empty afterwards, since BUSY takes its reset value too. The model's own host fields are no part of the block and stay (log 11). -/
def resetExceptSrc (s : State) : State :=
  { State.reset with
    src := s.src, hostQueue := s.hostQueue, hostReads := s.hostReads, cmdCount := s.cmdCount }

/-- Power-on reset, the block's reset input: the same, and every SRC byte becomes unwritten (70_reset_and_hazards.md R111). -/
def powerOnReset (s : State) : State := { resetExceptSrc s with src := State.reset.src }

end Sys2Proof.Machine
end

