-- ==== Sys2Proof/Machine/Operands.lean ====
section
/-! DEFINITION. Operands: the values commands compute with, taken from the ARG fields and from registers
(30_encoding.md R66), and the narrowing of exact results into register fields. -/

namespace Sys2Proof.Machine

/-- The code of a frame role (00_scope.md R10). -/
def FrameRole.code : FrameRole → BitVec 2
  | .first => 0
  | .middle => 1
  | .last => 2
  | .single => 3

/-- The role byte of a packet, `zext_8(ROLE)` (43_packet.md R93). -/
def roleByte (role : BitVec 2) : BitVec 8 := role.setWidth 8

/-- The file length `n <- x[DATA_LEN]` as an exact number (42_sequencer.md R86). -/
def State.fileLen (s : State) : Nat := s.dataLen.toNat

/-- `L <- min(x[RAW_LEN], 219)` (43_packet.md R93). -/
def State.rawCount (s : State) : Nat := min s.rawLen.toNat Config.payloadMax

/-- `INDEX = 0 or INDEX > x[FRAME_COUNT]` (42_sequencer.md R89, 43_packet.md R91). -/
def State.indexOutOfPlan (s : State) (index : BitVec 16) : Bool :=
  index == 0 || s.plan.frameCount < index

/-- The meaningful filename bytes `FNBUF[0..FN_LEN)` (41_header.md R81). -/
def nameBytes (fn : Vector (BitVec 8) 50) (len : BitVec 6) : List (BitVec 8) :=
  fn.toList.take len.toNat

end Sys2Proof.Machine
end

