-- ==== Sys2Proof/Machine/Checksum.lean ====
section
/-! DEFINITION. The Checksum Engine: CrcStep, Crc16, CRC_INIT and CRC_BYTE (40_crc.md). -/

namespace Sys2Proof.Machine

/-- One of the eight iterations of 40_crc.md R73: a logical right shift by 1, then the XOR when bit 0 was 1. -/
def crcShift (c : BitVec 16) : BitVec 16 :=
  if c.getLsbD 0 then (c >>> 1) ^^^ Config.crcPoly else c >>> 1

/-- `n` iterations of `crcShift`. -/
def crcShifts : Nat → BitVec 16 → BitVec 16
  | 0, c => c
  | n + 1, c => crcShifts n (crcShift c)

/-- `CrcStep(c, b)` (40_crc.md R73). -/
def crcStep (c : BitVec 16) (b : BitVec 8) : BitVec 16 :=
  crcShifts 8 (c ^^^ b.setWidth 16)

/-- The working register after the bytes `bs`, from `c` (40_crc.md R76, 41_header.md R81). -/
def crcFold (c : BitVec 16) (bs : List (BitVec 8)) : BitVec 16 := bs.foldl crcStep c

/-- `Crc16(s)` (40_crc.md R76). -/
def crc16 (bs : List (BitVec 8)) : BitVec 16 := crcFold Config.crcInit bs ^^^ Config.crcXorOut

/-- CRC_INIT (40_crc.md R74). -/
def execCrcInit (s : State) : Host.Outcome State Fault Refusal :=
  .next (succeed { s with crcState := Config.crcInit })

/-- CRC_BYTE (40_crc.md R75). -/
def execCrcByte (byte : BitVec 8) (s : State) : Host.Outcome State Fault Refusal :=
  .next (succeed { s with crcState := crcStep s.crcState byte })

end Sys2Proof.Machine
end

