-- ==== Sys2Proof/Machine/Control.lean ====
section
/-! DEFINITION. The control commands: NOP and SOFT_RESET (44_control.md). -/

namespace Sys2Proof.Machine

/-- NOP (44_control.md R96). -/
def execNop (s : State) : Host.Outcome State Fault Refusal := .next (succeed s)

/-- SOFT_RESET (44_control.md R97). ERR_CODE is 0x00 with every other register. -/
def execSoftReset (s : State) : Host.Outcome State Fault Refusal := .next (succeed (resetExceptSrc s))

end Sys2Proof.Machine
end

