-- ==== Sys2Proof/Machine/Header.lean ====
section
/-! DEFINITION. The Header Codec: MapByte, EncodeHeader, FN_CLEAR, FN_PUSH and HDR_BUILD (41_header.md). -/

namespace Sys2Proof.Machine

/-- `MapByte(b)` (41_header.md R79): an ASCII code is kept, any other byte becomes PLACEHOLDER. -/
def mapByte (b : BitVec 8) : BitVec 8 := if b.getLsbD 7 then Config.placeholder else b

/-- The CRC field of the header, big-endian (41_header.md R82, 20_memory.md R51). -/
def crcField (crc : BitVec 16) : Vector (BitVec 8) 2 :=
  #v[crc.extractLsb' 8 8, crc.extractLsb' 0 8]

/-- The size field of the header: the low 3 bytes of the length, big-endian (41_header.md R82). -/
def sizeField (n : BitVec 32) : Vector (BitVec 8) 3 :=
  #v[n.extractLsb' 16 8, n.extractLsb' 8 8, n.extractLsb' 0 8]

/-- `EncodeHeader(fn, fl, n)` (41_header.md R82). -/
def encodeHeader (fn : Vector (BitVec 8) 50) (len : BitVec 6) (n : BitVec 32) : Vector (BitVec 8) 55 :=
  fn ++ crcField (crc16 (nameBytes fn len)) ++ sizeField n

/-- FN_CLEAR (41_header.md R78). -/
def execFnClear (s : State) : Host.Outcome State Fault Refusal :=
  .next (succeed { s with fnbuf := Vector.replicate 50 0, fnLen := 0, fnTrunc := false, hdrValid := false })

/-- FN_PUSH (41_header.md R80): the byte is stored while the field has room, else dropped and flagged. -/
def execFnPush (byte : BitVec 8) (s : State) : Host.Outcome State Fault Refusal :=
  if h : s.fnLen.toNat < 50 then
    .next (succeed { s with
      fnbuf := s.fnbuf.set s.fnLen.toNat (mapByte byte) h, fnLen := s.fnLen + 1, hdrValid := false })
  else
    .next (succeed { s with fnTrunc := true, hdrValid := false })

/-- HDR_BUILD (41_header.md R81). -/
def execHdrBuild (s : State) : Host.Outcome State Fault Refusal :=
  if Config.sizeMax < s.fileLen then .next (raiseCmdError .sizeLimit s)
  else
    .next (succeed { s with
      hdrbuf := encodeHeader s.fnbuf s.fnLen s.dataLen
      fnCrc := crcFold Config.crcInit (nameBytes s.fnbuf s.fnLen) ^^^ Config.crcXorOut
      crcState := crcFold Config.crcInit (nameBytes s.fnbuf s.fnLen)
      hdrValid := true })

end Sys2Proof.Machine
end

