-- ==== Sys2Proof/Machine/Sequencer.lean ====
section
/-! DEFINITION. The Frame Sequencer: FrameCount, FrameGeom, PLAN and FRAME_INFO (42_sequencer.md). -/

namespace Sys2Proof.Machine

/-- `ceil_div(a, b)` for `b > 0` (00_scope.md R13). -/
def ceilDiv (a b : Nat) : Nat := (a + (b - 1)) / b

/-- `FrameCount(n)` (42_sequencer.md R87). -/
def frameCount (n : Nat) : Nat :=
  if n ≤ Config.singleMax then 1
  else 1 + ceilDiv (n - Config.firstDataMax) Config.midDataMax

/-- The four results of `FrameGeom` (42_sequencer.md R88), exact. -/
structure FrameGeom where
  role : FrameRole
  off : Nat
  dlen : Nat
  plen : Nat
deriving DecidableEq, Repr

/-- `FrameGeom(i, n)` (42_sequencer.md R88) for `1 <= n <= SIZE_MAX` and `1 <= i <= FrameCount(n)`. Outside those inputs
the rule says nothing and no command of a reachable state asks (log 14). -/
def frameGeom (i n : Nat) : FrameGeom :=
  if n ≤ Config.singleMax then
    { role := .single, off := 0, dlen := n, plen := Config.headerLen + n }
  else if i = 1 then
    { role := .first, off := 0, dlen := Config.firstDataMax, plen := Config.headerLen + Config.firstDataMax }
  else
    let off := Config.firstDataMax + Config.midDataMax * (i - 2)
    let dlen := min Config.midDataMax (n - off)
    { role := if i = frameCount n then .last else .middle, off := off, dlen := dlen, plen := dlen }

/-- The FRM_ registers for frame `index` with geometry `g` (42_sequencer.md R89, 43_packet.md R91). -/
def frameRegs (index : BitVec 16) (g : FrameGeom) : FrameRegs where
  index := index
  role := FrameRole.code g.role
  dataOff := BitVec.ofNat 21 g.off
  dataLen := BitVec.ofNat 8 g.dlen
  payloadLen := BitVec.ofNat 8 g.plen

/-- The plan registers PLAN writes for a file of `n` bytes (42_sequencer.md R86). -/
def planRegs (n : Nat) : PlanRegs where
  mode := if n ≤ Config.singleMax then 1 else 2
  frameCount := BitVec.ofNat 16 (frameCount n)
  passCount := if n ≤ Config.singleMax then 1 else 2
  lastDataLen := BitVec.ofNat 8 (frameGeom (frameCount n) n).dlen

/-- PLAN (42_sequencer.md R85, R86). -/
def execPlan (s : State) : Host.Outcome State Fault Refusal :=
  if s.fileLen = 0 then .next (raiseCmdError .emptyFile s)
  else if Config.sizeMax < s.fileLen then .next (raiseCmdError .sizeLimit s)
  else .next (succeed { s with plan := planRegs s.fileLen })

/-- FRAME_INFO (42_sequencer.md R89). -/
def execFrameInfo (index : BitVec 16) (s : State) : Host.Outcome State Fault Refusal :=
  if s.plan.mode = 0 then .next (raiseCmdError .notReady s)
  else if s.indexOutOfPlan index then .next (raiseCmdError .badIndex s)
  else .next (succeed { s with frame := frameRegs index (frameGeom index.toNat s.fileLen) })

end Sys2Proof.Machine
end

