-- ==== Sys2Proof/Machine/Packet.lean ====
section
/-! DEFINITION. The Packet Codec: EncodePacket, PKT_BUILD and PKT_RAW (43_packet.md). -/

namespace Sys2Proof.Machine

/-- The payload region, packet bytes 2 to 220: at most 219 payload bytes, then zeros (43_packet.md R92). -/
def payloadRegion (pay : List (BitVec 8)) : List (BitVec 8) :=
  pay.take 219 ++ List.replicate (219 - (pay.take 219).length) 0

/-- `EncodePacket(tag, role, pay)` (43_packet.md R92). -/
def encodePacket (tag role : BitVec 8) (pay : List (BitVec 8)) : Vector (BitVec 8) 221 :=
  ⟨(tag :: role :: payloadRegion pay).toArray, by simp [payloadRegion]⟩

/-- The payload of frame `index` with data bytes `data`: the header leads in frame 1 only (43_packet.md R91). -/
def framePayload (index : BitVec 16) (hdrbuf : Vector (BitVec 8) 55) (data : List (BitVec 8)) : List (BitVec 8) :=
  if index = 1 then hdrbuf.toList ++ data else data

/-- PKT_BUILD (43_packet.md R91). The unwritten-byte check comes after every CmdError check and before any write
(60_exceptions.md R107). -/
def execPktBuild (index : BitVec 16) (s : State) : Host.Outcome State Fault Refusal :=
  if s.plan.mode = 0 then .next (raiseCmdError .notReady s)
  else if s.indexOutOfPlan index then .next (raiseCmdError .badIndex s)
  else if index = 1 ∧ s.hdrValid = false then .next (raiseCmdError .notReady s)
  else
    let g := frameGeom index.toNat s.fileLen
    match s.src.readRange g.off g.dlen with
    | none => .fault .unwrittenSrcRead
    | some data =>
      .next (succeed (storePacket
        (encodePacket Config.typeTag (roleByte (FrameRole.code g.role)) (framePayload index s.hdrbuf data))
        { index := index, payloadLen := BitVec.ofNat 8 g.plen, role := FrameRole.code g.role }
        { s with frame := frameRegs index g }))

/-- PKT_RAW (43_packet.md R93). -/
def execPktRaw (role : BitVec 2) (s : State) : Host.Outcome State Fault Refusal :=
  if Config.srcBytes < s.rawOff.toNat + s.rawCount then .next (raiseCmdError .srcRange s)
  else
    match s.src.readRange s.rawOff.toNat s.rawCount with
    | none => .fault .unwrittenSrcRead
    | some pay =>
      .next (succeed (storePacket (encodePacket Config.typeTag (roleByte role) pay)
        { index := 0, payloadLen := BitVec.ofNat 8 s.rawCount, role := role } s))

end Sys2Proof.Machine
end

