-- ==== Sys2Proof/Machine/Dispatch.lean ====
section
/-! DEFINITION. Dispatch: one arm per command of 30_encoding.md R65, each one call of its meaning. -/

namespace Sys2Proof.Machine

def exec (i : Instr) (s : State) : Host.Outcome State Fault Refusal :=
  match i with
  | .nop => Sys2Proof.Machine.execNop s
  | .crcInit => Sys2Proof.Machine.execCrcInit s
  | .crcByte byte => Sys2Proof.Machine.execCrcByte byte s
  | .fnClear => Sys2Proof.Machine.execFnClear s
  | .fnPush byte => Sys2Proof.Machine.execFnPush byte s
  | .hdrBuild => Sys2Proof.Machine.execHdrBuild s
  | .plan => Sys2Proof.Machine.execPlan s
  | .frameInfo index => Sys2Proof.Machine.execFrameInfo index s
  | .pktBuild index => Sys2Proof.Machine.execPktBuild index s
  | .pktRaw role => Sys2Proof.Machine.execPktRaw role s
  | .softReset => Sys2Proof.Machine.execSoftReset s

end Sys2Proof.Machine
end

