-- ==== Sys2Proof/Machine/Registers.lean ====
section
/-! DEFINITION. Registers: the register map of 10_state.md section 2, what a 32-bit read of each register returns and
what a 32-bit write does. -/

namespace Sys2Proof.Machine

/-- The named registers (10_state.md section 2). -/
inductive Reg where
  | id
  | cmd
  | status
  | dataLen
  | crcState
  | crcOut
  | fnLen
  | fnCrc
  | planMode
  | frameCount
  | passCount
  | lastDataLen
  | frmIndex
  | frmRole
  | frmDataOff
  | frmDataLen
  | frmPayloadLen
  | rawOff
  | rawLen
  | pktInfo
deriving DecidableEq, Repr

/-- The registers in the order of their offsets. -/
def Reg.all : List Reg :=
  [.id, .cmd, .status, .dataLen, .crcState, .crcOut, .fnLen, .fnCrc, .planMode, .frameCount, .passCount, .lastDataLen,
   .frmIndex, .frmRole, .frmDataOff, .frmDataLen, .frmPayloadLen, .rawOff, .rawLen, .pktInfo]

/-- The offset of each register, which is its block address too (10_state.md section 2, 20_memory.md R45). -/
def Reg.offset : Reg → Addr
  | .id => 0x00
  | .cmd => 0x04
  | .status => 0x08
  | .dataLen => 0x0C
  | .crcState => 0x10
  | .crcOut => 0x14
  | .fnLen => 0x18
  | .fnCrc => 0x1C
  | .planMode => 0x20
  | .frameCount => 0x24
  | .passCount => 0x28
  | .lastDataLen => 0x2C
  | .frmIndex => 0x30
  | .frmRole => 0x34
  | .frmDataOff => 0x38
  | .frmDataLen => 0x3C
  | .frmPayloadLen => 0x40
  | .rawOff => 0x44
  | .rawLen => 0x48
  | .pktInfo => 0x4C

/-- The register at an offset; none for the reserved offsets 0x50 to 0xFC (10_state.md R37). -/
def Reg.ofOffset (a : Addr) : Option Reg := Reg.all.find? (fun r => r.offset == a)

/-- The PKT_INFO word (10_state.md R36). -/
def PktInfo.toWord (p : PktInfo) : BitVec 32 := 0#6 ++ p.role ++ p.payloadLen ++ p.index

/-- What a host read of a register returns (10_state.md R17 to R36); bits a rule does not name read 0 (R15). -/
def readReg (s : State) : Reg → BitVec 32
  | .id => Config.idValue
  | .cmd => 0
  | .status => s.status
  | .dataLen => s.dataLen
  | .crcState => s.crcState.setWidth 32
  | .crcOut => (s.crcState ^^^ Config.crcXorOut).setWidth 32
  | .fnLen => s.fnLen.setWidth 32
  | .fnCrc => s.fnCrc.setWidth 32
  | .planMode => s.plan.mode.setWidth 32
  | .frameCount => s.plan.frameCount.setWidth 32
  | .passCount => s.plan.passCount.setWidth 32
  | .lastDataLen => s.plan.lastDataLen.setWidth 32
  | .frmIndex => s.frame.index.setWidth 32
  | .frmRole => s.frame.role.setWidth 32
  | .frmDataOff => s.frame.dataOff.setWidth 32
  | .frmDataLen => s.frame.dataLen.setWidth 32
  | .frmPayloadLen => s.frame.payloadLen.setWidth 32
  | .rawOff => s.rawOff.setWidth 32
  | .rawLen => s.rawLen
  | .pktInfo => s.pktInfo.toWord

/-- What a host write of `v` to a register does (10_state.md R17 to R36, 20_memory.md R56): CMD, STATUS, DATA_LEN, RAW_OFF
and RAW_LEN are written, every other register is read-only and ignores it. -/
def writeReg (v : BitVec 32) (s : State) : Reg → State
  | .id => s
  | .cmd => latchCommand v s
  | .status => writeStatus v s
  | .dataLen => setDataLen v s
  | .crcState => s
  | .crcOut => s
  | .fnLen => s
  | .fnCrc => s
  | .planMode => s
  | .frameCount => s
  | .passCount => s
  | .lastDataLen => s
  | .frmIndex => s
  | .frmRole => s
  | .frmDataOff => s
  | .frmDataLen => s
  | .frmPayloadLen => s
  | .rawOff => { s with rawOff := v.setWidth 21 }
  | .rawLen => { s with rawLen := v }
  | .pktInfo => s

end Sys2Proof.Machine
end

