-- ==== Sys2Proof/Machine/HostPort.lean ====
section
/-! DEFINITION. HostPort: the address map, access checks, byte lanes and effects of the host's accesses (20_memory.md), and
one step of the host agent. -/

namespace Sys2Proof.Machine

/-- The regions of the block's address space (20_memory.md R45). -/
inductive Region where
  | reg
  | pktbuf
  | hdrbuf
  | reserved
  | src
deriving DecidableEq, Repr

/-- The region of a block address (20_memory.md R45). -/
def regionOf (a : Addr) : Region :=
  if a.toNat < 0x100 then .reg
  else if a.toNat < 0x200 then .pktbuf
  else if a.toNat < 0x240 then .hdrbuf
  else if a.toNat < 0x200000 then .reserved
  else .src

/-- The SRC offset of an address in the SRC window (20_memory.md R45). -/
def srcOffset (a : Addr) : Nat := a.toNat - 0x200000

/-- Is the access a 32-bit read of STATUS, the only one allowed while BUSY (70_reset_and_hazards.md R121)? -/
def isStatusRead (isRead : Bool) (a : Addr) (size : Nat) : Bool :=
  isRead && size == 4 && a == Reg.status.offset

/-- The HostFault an access is refused with, if any (60_exceptions.md R106, 20_memory.md R46 to R49). The order among several
reasons and the name `badSize` are the model's (log 8, DESIGN CHOICE). -/
def hostFault (isRead : Bool) (a : Addr) (size : Nat) (s : State) : Option Fault :=
  if s.busy && !isStatusRead isRead a size then some .busyAccess
  else if size ≠ 1 ∧ size ≠ 4 then some .badSize
  else if size = 4 ∧ a.toNat % 4 ≠ 0 then some .misaligned
  else if size = 1 ∧ regionOf a = .reg then some .regByteAccess
  else none

/-- The byte at a block address outside REG, or none for an unwritten SRC byte (20_memory.md R45, R52 to R55). The registers have
no bytes of their own (R50). -/
def windowByte (a : Addr) (s : State) : Option (BitVec 8) :=
  match regionOf a with
  | .reg => some 0
  | .pktbuf => some (s.pktbuf[a.toNat - 0x100]?.getD 0)
  | .hdrbuf => some (s.hdrbuf[a.toNat - 0x200]?.getD 0)
  | .reserved => some 0
  | .src => s.src.read (srcOffset a)

/-- Lane `j` of a 32-bit value, bits `[8j+7:8j]` (20_memory.md R50). -/
def lane (v : BitVec 32) (j : Nat) : BitVec 8 := v.extractLsb' (8 * j) 8

/-- The 32-bit value of four bytes in address order, little-endian (20_memory.md R50). -/
def joinLanes (b0 b1 b2 b3 : BitVec 8) : BitVec 32 := b3 ++ b2 ++ b1 ++ b0

/-- The word of four window bytes from `a`, or none when one of them is unwritten (20_memory.md R50, R55). -/
def windowWord (a : Addr) (s : State) : Option (BitVec 32) :=
  match windowByte a s, windowByte (a + 1) s, windowByte (a + 2) s, windowByte (a + 3) s with
  | some b0, some b1, some b2, some b3 => some (joinLanes b0 b1 b2 b3)
  | _, _, _, _ => none

/-- What a 32-bit read of REG returns: the register, or 0 at a reserved offset (10_state.md R37). -/
def readRegAt (a : Addr) (s : State) : BitVec 32 :=
  match Reg.ofOffset a with
  | some r => readReg s r
  | none => 0

/-- `HostRead(a, size)` (20_memory.md R46 to R55). Where a read is refused by a HostFault and meets an unwritten SRC byte too, the
HostFault is reported (log 8, DESIGN CHOICE). -/
def hostRead (a : Addr) (size : Nat) (s : State) : Except Fault HostValue :=
  match hostFault true a size s with
  | some f => .error f
  | none =>
    if regionOf a = .reg then .ok (.word (readRegAt a s))
    else if size = 1 then
      match windowByte a s with
      | some b => .ok (.byte b)
      | none => .error .unwrittenSrcRead
    else
      match windowWord a s with
      | some v => .ok (.word v)
      | none => .error .unwrittenSrcRead

/-- The SRC bytes after a write of `v` at `offset`: one byte `v[7:0]`, or four bytes by lane (20_memory.md R50, R55). -/
def writeSrc (offset size : Nat) (v : BitVec 32) (m : Memory) : Memory :=
  if size = 1 then m.write offset (lane v 0)
  else
    (((m.write offset (lane v 0)).write (offset + 1) (lane v 1)).write (offset + 2) (lane v 2)).write
      (offset + 3) (lane v 3)

/-- `HostWrite(a, size, v)` (20_memory.md R46 to R56). -/
def hostWrite (a : Addr) (size : Nat) (v : BitVec 32) (s : State) : Except Fault State :=
  match hostFault false a size s with
  | some f => .error f
  | none =>
    match regionOf a with
    | .reg =>
      match Reg.ofOffset a with
      | some r => .ok (writeReg v s r)
      | none => .ok s
    | .pktbuf => .ok s
    | .hdrbuf => .ok s
    | .reserved => .ok s
    | .src => .ok { s with src := writeSrc (srcOffset a) size v s.src }

/-- The host records what a read returned and has one access less to make before the engine runs (log 2, log 3). -/
def recordRead (v : HostValue) (s : State) : State :=
  { s with hostReads := s.hostReads ++ [v], pollsLeft := s.pollsLeft - 1 }

/-- One step of the host agent (00_scope.md R14): its next action. With none left it does nothing (log 2). -/
def hostStep (s : State) : Host.Outcome State Fault Refusal :=
  match s.hostQueue with
  | [] => .next s
  | .read a size :: rest =>
    match hostRead a size s with
    | .ok v => .next (recordRead v { s with hostQueue := rest })
    | .error f => .fault f
  | .write a size v :: rest =>
    match hostWrite a size v { s with hostQueue := rest } with
    | .ok t => .next t
    | .error f => .fault f
  | .wait :: rest => if s.busy then .next s else .next { s with hostQueue := rest }
  | .powerOn :: rest => .next (powerOnReset { s with hostQueue := rest })

end Sys2Proof.Machine
end

