-- ==== Sys2Proof/Machine/Engine.lean ====
section
/-! DEFINITION. Engine: the engine step (30_encoding.md R63) and which agent moves next. -/

namespace Sys2Proof.Machine

/-- EngineStep on the latched word `w` (30_encoding.md R63): the latch is emptied, the word decoded, and the command executed or
its decode error reported. -/
def engineStep (w : BitVec 32) (s : State) : Host.Outcome State Fault Refusal :=
  match decode w with
  | .ok i => exec i (takeCommand s)
  | .error e => .next (raiseCmdError (CmdError.ofDecode e) (takeCommand s))

/-- While a command is latched, is it the engine's turn? It is when the host has nothing to do, when the host waits for BUSY to
fall, and when the command's latency is over (70_reset_and_hazards.md R122; log 2, log 3). -/
def engineTurn (s : State) : Bool :=
  match s.hostQueue with
  | [] => true
  | .wait :: _ => true
  | .read _ _ :: _ => s.pollsLeft == 0
  | .write _ _ _ :: _ => s.pollsLeft == 0
  | .powerOn :: _ => s.pollsLeft == 0

/-- One step of the whole machine: the engine's when a command is latched and it is its turn, else the host's
(00_scope.md R5, 10_state.md R42, 20_memory.md R58). -/
def machineStep (s : State) : Host.Outcome State Fault Refusal :=
  match s.pending with
  | some w => if engineTurn s then engineStep w s else hostStep s
  | none => hostStep s

/-- `s` with the table word `w` of `nbits` bits latched as a CMD write leaves it, and the engine's turn come (log 12). -/
def latchTableWord (s : State) (nbits w : Nat) : State :=
  { s with pending := some (BitVec.ofNat 32 (w % 2 ^ nbits)), pollsLeft := 0 }

/-- The commands `is` executed one after another, stopping at a fault or a refusal. -/
def execAll : List Instr → State → Host.Outcome State Fault Refusal
  | [], s => .next s
  | i :: is, s =>
    match exec i s with
    | .next t => execAll is t
    | .fault f => .fault f
    | .refused r => .refused r

end Sys2Proof.Machine
end

