-- ==== Sys2Proof/Machine/Step.lean ====
section
/-! DEFINITION. Step: one step of the machine, and the state in which the very next step runs a given command word. -/

namespace Sys2Proof.Machine

/-- One step of the machine (00_scope.md R5, R14). -/
def step (s : State) : Host.Outcome State Fault Refusal := machineStep s

/-- `s` with the word `w` in the command latch, where the engine step takes its next command (10_state.md R42, log 12). -/
def State.withFetchWord (s : State) (nbits w : Nat) : State := latchTableWord s nbits w

end Sys2Proof.Machine
end

