-- ==== Sys2Proof/Safety.lean ====
section
/-! DEFINITION. Safety: the end of a run, the invariants the spec gives the state, and the parts of a state that are the
block's rather than the model's host agent. -/

namespace Sys2Proof.Machine

/-- The run has ended: the host has nothing left to do and the latch is empty (70_reset_and_hazards.md R123). That no fault is
recorded holds of every state, since a fault is an outcome and not a state (log 7). -/
def State.final (s : State) : Prop := s.hostQueue = [] ∧ s.pending = none

/-- `s` with the model's own host fields of `t`: two states whose blocks agree are equal after it. -/
def State.withHostOf (s t : State) : State :=
  { s with hostQueue := t.hostQueue, hostReads := t.hostReads, pollsLeft := t.pollsLeft, cmdCount := t.cmdCount }

/-- The latched command decodes to `i`. -/
def State.latched (s : State) (i : Instr) : Prop := ∃ w, s.pending = some w ∧ decode w = .ok i

/-- The host's next action asserts the block's reset input (70_reset_and_hazards.md R111). -/
def State.resetAsserted (s : State) : Prop := ∃ rest, s.hostQueue = .powerOn :: rest

/-- The file bytes a packet of the frame in FRM_ registers carries: those after the header in frame 1, else from packet byte 2
(42_sequencer.md R88, 43_packet.md R91). -/
def State.packetData (s : State) : List (BitVec 8) :=
  (s.pktbuf.toList.drop (2 + (s.frame.payloadLen.toNat - s.frame.dataLen.toNat))).take s.frame.dataLen.toNat

/-- 10_state.md R43 items 1 to 4, and PLAN_MODE is never 3 (30_encoding.md R70). -/
def State.planInv (s : State) : Prop :=
  (s.planValid = true ↔ s.plan.mode ≠ 0) ∧
  (s.plan.mode = 0 → s.plan.frameCount = 0 ∧ s.plan.passCount = 0 ∧ s.plan.lastDataLen = 0) ∧
  (s.plan.mode = 1 → s.plan.frameCount = 1 ∧ s.plan.passCount = 1) ∧
  (s.plan.mode = 2 → 2 ≤ s.plan.frameCount.toNat ∧ s.plan.passCount = 2) ∧
  s.plan.mode ≠ 3 ∧
  (s.plan.mode ≠ 0 → 1 ≤ s.fileLen ∧ s.fileLen ≤ Config.sizeMax)

/-- 10_state.md R43 item 5. -/
def State.headerInv (s : State) : Prop :=
  s.hdrValid = true → s.fileLen ≤ Config.sizeMax ∧ s.hdrbuf = encodeHeader s.fnbuf s.fnLen s.dataLen

/-- 10_state.md R43 item 6 (and R38). -/
def State.nameInv (s : State) : Prop :=
  s.fnLen.toNat ≤ 50 ∧ ∀ (k : Nat) (h : k < 50), s.fnLen.toNat ≤ k → s.fnbuf[k] = 0

/-- The plan registers are those of the current DATA_LEN, or there is no plan (10_state.md R19, 42_sequencer.md R86). -/
def State.currentPlanInv (s : State) : Prop :=
  s.plan = PlanRegs.none ∨ (1 ≤ s.fileLen ∧ s.fileLen ≤ Config.sizeMax ∧ s.plan = planRegs s.fileLen)

/-- The ranges of the FRM_ registers (10_state.md R31 to R33) once a frame has been selected (R29). -/
def State.frameInv (s : State) : Prop :=
  s.frame.index ≠ 0 →
    1 ≤ s.frame.dataLen.toNat ∧ s.frame.dataLen.toNat ≤ 219 ∧
    s.frame.payloadLen.toNat = (if s.frame.index = 1 then 55 else 0) + s.frame.dataLen.toNat ∧
    s.frame.payloadLen.toNat ≤ 219 ∧ s.frame.dataOff.toNat ≤ 2097088

/-- 43_packet.md R95 for the packet that PKT_VALID says PKTBUF holds. -/
def State.packetInv (s : State) : Prop :=
  s.pktValid = true →
    s.pktbuf[0] = Config.typeTag ∧ s.pktbuf[1] = roleByte s.pktInfo.role ∧ s.pktInfo.payloadLen.toNat ≤ 219 ∧
    ∀ (k : Nat) (h : k < 219), s.pktInfo.payloadLen.toNat ≤ k → s.pktbuf[2 + k] = 0

/-- ERR_CODE values 0x08 to 0xFF are never produced (30_encoding.md R70). -/
def State.errCodeInv (s : State) : Prop := s.errCode.toNat ≤ 7

/-- SRC is in canonical form (10_state.md R41). -/
def State.srcInv (s : State) : Prop := s.src.wf = true

end Sys2Proof.Machine
end

