-- ==== Sys2Proof/WellFormed.lean ====
section
/-! DEFINITION. WellFormed: which commands the encoding can hold (30_encoding.md R66) and which host accesses
the block's access rules admit whatever its state (20_memory.md R46 to R49). -/

namespace Sys2Proof

/-- A command is well formed when each operand fits the ARG field 30_encoding.md R66 gives it: BYTE below 2^8,
INDEX below 2^16, ROLE below 2^2. The constructors of `Instr` already carry these widths, so every command passes
(`Instr.wellFormed_all` in Laws/PerInstr.lean); the checks that can fail are those of words (`decode`) and of
host accesses (`HostAction.wellFormed`). -/
def Instr.wellFormed : Instr → Bool
  | .nop => true
  | .crcInit => true
  | .crcByte byte => byte.toNat < 2 ^ 8
  | .fnClear => true
  | .fnPush byte => byte.toNat < 2 ^ 8
  | .hdrBuild => true
  | .plan => true
  | .frameInfo index => index.toNat < 2 ^ 16
  | .pktBuild index => index.toNat < 2 ^ 16
  | .pktRaw role => role.toNat < 2 ^ 2
  | .softReset => true

/-- The size and alignment rules for one access: 1 byte outside REG (20_memory.md R47, R48), or 4 bytes at an
address whose low two bits are 0 (R48, R49). Any other size is refused (R46). -/
def Machine.accessWellFormed (addr : Addr) (size : Nat) : Bool :=
  (size == 1 && 0x100 ≤ addr.toNat) || (size == 4 && addr.toNat % 4 == 0)

/-- A host action that the block admits when it is not busy. -/
def Machine.HostAction.wellFormed : Machine.HostAction → Bool
  | .read addr size => Machine.accessWellFormed addr size
  | .write addr size _ => Machine.accessWellFormed addr size
  | .wait => true
  | .powerOn => true

end Sys2Proof
end

