-- ==== Sys2Proof/Certificates/Slice0/Obligations.lean ====
section
/-! DEFINITION. Obligations: what the numbered rules of the spec say the commands, the registers, the host port and the whole
machine do, stated for the provers. -/

open Sys2Proof Sys2Proof.Machine

/-! ### Checksum Engine (40_crc.md) -/

/-- 40_crc.md R73: XOR into the low byte, then eight conditional shifts by the reflected polynomial, with the rule's four examples. -/
def Obligations.CrcStepIsEightReflectedShifts : Prop :=
  (∀ (c : BitVec 16) (b : BitVec 8),
    crcStep c b =
      (fun x : BitVec 16 => if x.getLsbD 0 then (x >>> 1) ^^^ 0x8408 else x >>> 1)^[8] (c ^^^ b.setWidth 16)) ∧
  crcStep 0xFFFF 0x54 = 0x1B26 ∧ crcStep 0xFFFF 0x00 = 0x0F87 ∧ crcStep 0x0000 0x00 = 0x0000 ∧
  crcStep 0x0000 0x01 = 0x1189

/-- The byte-table form of the CRC update equals the bit-serial rule: shift by 8 and XOR with the step of the low byte from 0. -/
def Obligations.CrcStepEqualsTableForm : Prop :=
  ∀ (c : BitVec 16) (b : BitVec 8), crcStep c b = (c >>> 8) ^^^ crcStep 0 (c.setWidth 8 ^^^ b)

/-- Two sequences that differ in exactly one byte have different CRCs. -/
def Obligations.Crc16DetectsOneChangedByte : Prop :=
  ∀ (xs ys : List (BitVec 8)) (b b' : BitVec 8), b ≠ b' → crc16 (xs ++ b :: ys) ≠ crc16 (xs ++ b' :: ys)

/-- 40_crc.md R74: CRC_INIT writes 0xFFFF to CRC_STATE and nothing else but ERR_CODE, takes no ARG, and CRC_OUT then reads 0. -/
def Obligations.CrcInitStartsComputation : Prop :=
  (∀ s : State, exec .crcInit s = .next { s with crcState := 0xFFFF, errCode := 0 }) ∧
  (∀ s t : State, exec .crcInit s = .next t → exec .crcInit t = .next t ∧ readReg t .crcOut = 0) ∧
  encode .crcInit = 0x01000000 ∧
  (∀ arg : BitVec 24, decode (0x01#8 ++ arg) = if arg = 0 then .ok .crcInit else .error .badArg)

/-- 40_crc.md R75: CRC_BYTE absorbs one byte, from whatever CRC_STATE holds, and changes nothing else but ERR_CODE. -/
def Obligations.CrcByteAbsorbsOneByte : Prop :=
  (∀ (s : State) (b : BitVec 8),
    exec (.crcByte b) s = .next { s with crcState := crcStep s.crcState b, errCode := 0 }) ∧
  (∀ s : State, s.crcState = 0xFFFF → ∃ t, exec (.crcByte 0x54) s = .next t ∧
    t.crcState = 0x1B26 ∧ readReg t .crcOut = 0xE4D9) ∧
  (∀ s : State, s.crcState = 0x0000 → ∃ t, exec (.crcByte 0x00) s = .next t ∧ t.crcState = 0x0000) ∧
  (∀ b : BitVec 8, encode (.crcByte b) = 0x020000#24 ++ b) ∧
  (∀ arg : BitVec 24, decode (0x02#8 ++ arg) =
    if arg.toNat < 256 then .ok (.crcByte (arg.setWidth 8)) else .error .badArg)

/-- 40_crc.md R76: Crc16 by its algorithm; CRC_INIT and one CRC_BYTE per byte leave it in CRC_OUT; 0 for the empty sequence, 0x89D1 for
"TEST", 0x906E for "123456789". -/
def Obligations.CrcCommandsComputeCrc16 : Prop :=
  (∀ bs : List (BitVec 8), crc16 bs = bs.foldl crcStep 0xFFFF ^^^ 0xFFFF) ∧
  (∀ (s : State) (bs : List (BitVec 8)), ∃ t, execAll (.crcInit :: bs.map .crcByte) s = .next t ∧
    t = { s with crcState := crc16 bs ^^^ 0xFFFF, errCode := 0 } ∧ readReg t .crcOut = (crc16 bs).setWidth 32) ∧
  crc16 [] = 0x0000 ∧ crc16 [0x54, 0x45, 0x53, 0x54] = 0x89D1 ∧
  crc16 [0x31, 0x32, 0x33, 0x34, 0x35, 0x36, 0x37, 0x38, 0x39] = 0x906E

/-! ### Header Codec (41_header.md) -/

/-- 41_header.md R78: FN_CLEAR empties the filename field and its flags and changes nothing else; an empty name is legal for
HDR_BUILD. -/
def Obligations.FnClearEmptiesName : Prop :=
  (∀ s : State, exec .fnClear s = .next { s with
    fnbuf := Vector.replicate 50 0, fnLen := 0, fnTrunc := false, hdrValid := false, errCode := 0 }) ∧
  (∀ s t : State, exec .fnClear s = .next t →
    readReg t .fnLen = 0 ∧ t.status.getLsbD 1 = false ∧ t.status.getLsbD 4 = false ∧
    (s.fileLen ≤ 0x1FFFFF → ∃ u, exec .hdrBuild t = .next u ∧ u.hdrValid = true)) ∧
  encode .fnClear = 0x10000000 ∧
  (∀ arg : BitVec 24, decode (0x10#8 ++ arg) = if arg = 0 then .ok .fnClear else .error .badArg)

/-- 41_header.md R79 and R80: FN_PUSH appends the mapped byte (an ASCII byte kept, any other 0x3F) while fewer than 50 are held, else
drops it and sets FN_TRUNC; HDR_VALID falls either way. A stored byte, 0x00 included, counts as a name byte that the CRC covers. -/
def Obligations.FnPushAppendsOrTruncates : Prop :=
  (∀ b : BitVec 8, (b.toNat < 128 → mapByte b = b) ∧ (128 ≤ b.toNat → mapByte b = 0x3F)) ∧
  (∀ (s : State) (b : BitVec 8) (h : s.fnLen.toNat < 50),
    exec (.fnPush b) s = .next { s with
      fnbuf := s.fnbuf.set s.fnLen.toNat (mapByte b) h, fnLen := s.fnLen + 1, hdrValid := false, errCode := 0 }) ∧
  (∀ (s t : State) (b : BitVec 8), s.fnLen.toNat < 50 → exec (.fnPush b) s = .next t →
    nameBytes t.fnbuf t.fnLen = nameBytes s.fnbuf s.fnLen ++ [mapByte b]) ∧
  (∀ (s : State) (b : BitVec 8), 50 ≤ s.fnLen.toNat →
    exec (.fnPush b) s = .next { s with fnTrunc := true, hdrValid := false, errCode := 0 }) ∧
  (∀ b : BitVec 8, encode (.fnPush b) = 0x110000#24 ++ b) ∧
  (∀ arg : BitVec 24, decode (0x11#8 ++ arg) =
    if arg.toNat < 256 then .ok (.fnPush (arg.setWidth 8)) else .error .badArg)

/-- 41_header.md R82: the 55 header bytes, one by one. -/
def Obligations.EncodeHeaderLayout : Prop :=
  ∀ (fn : Vector (BitVec 8) 50) (len : BitVec 6) (n : BitVec 32),
    (∀ (k : Nat) (h : k < 50), (encodeHeader fn len n)[k] = fn[k]) ∧
    (encodeHeader fn len n)[50] = (crc16 (fn.toList.take len.toNat)).extractLsb' 8 8 ∧
    (encodeHeader fn len n)[51] = (crc16 (fn.toList.take len.toNat)).extractLsb' 0 8 ∧
    (encodeHeader fn len n)[52] = n.extractLsb' 16 8 ∧
    (encodeHeader fn len n)[53] = n.extractLsb' 8 8 ∧
    (encodeHeader fn len n)[54] = n.extractLsb' 0 8

/-- 41_header.md R81: HDR_BUILD rejects a length above SIZE_MAX and else builds the header, leaves the name's CRC in FN_CRC and its raw
register in CRC_STATE, and changes nothing else; with the rule's corner cases and example. -/
def Obligations.HdrBuildBuildsHeader : Prop :=
  (∀ s : State, s.fileLen ≤ 0x1FFFFF → exec .hdrBuild s = .next { s with
    hdrbuf := encodeHeader s.fnbuf s.fnLen s.dataLen
    fnCrc := crc16 (nameBytes s.fnbuf s.fnLen)
    crcState := (nameBytes s.fnbuf s.fnLen).foldl crcStep 0xFFFF
    hdrValid := true
    errCode := 0 }) ∧
  (∀ s : State, 0x1FFFFF < s.fileLen → exec .hdrBuild s = .next { s with errCode := 0x02, errSticky := true }) ∧
  (∀ s t : State, s.fileLen ≤ 0x1FFFFF → exec .hdrBuild s = .next t →
    readReg t .crcOut = readReg t .fnCrc ∧
    (s.dataLen = 0 → t.hdrbuf[52] = 0 ∧ t.hdrbuf[53] = 0 ∧ t.hdrbuf[54] = 0) ∧
    (s.fnLen = 0 → t.fnCrc = 0x0000) ∧
    (s.nameInv → s.fnLen = 0 → ∀ (k : Nat) (h : k < 50), t.hdrbuf[k] = 0)) ∧
  (∀ s : State, s.fnLen = 7 → s.dataLen = 500 →
    s.fnbuf.toList = [0x6C, 0x6F, 0x67, 0x2E, 0x74, 0x78, 0x74] ++ List.replicate 43 0 →
    ∃ t, exec .hdrBuild s = .next t ∧ t.fnCrc = 0x7B37 ∧ t.crcState = 0x84C8 ∧
      t.hdrbuf.toList = [0x6C, 0x6F, 0x67, 0x2E, 0x74, 0x78, 0x74] ++ List.replicate 43 0 ++
        [0x7B, 0x37, 0x00, 0x01, 0xF4]) ∧
  encode .hdrBuild = 0x12000000 ∧
  (∀ arg : BitVec 24, decode (0x12#8 ++ arg) = if arg = 0 then .ok .hdrBuild else .error .badArg)

/-- 41_header.md R83: the size field holds the low 24 bits of the length; in every header HDR_BUILD builds it is the whole length and
the top three bits of header byte 52 are 0. -/
def Obligations.HeaderSizeFieldHoldsLength : Prop :=
  (∀ (fn : Vector (BitVec 8) 50) (len : BitVec 6) (n : BitVec 32),
    (encodeHeader fn len n)[52].toNat * 65536 + (encodeHeader fn len n)[53].toNat * 256 +
      (encodeHeader fn len n)[54].toNat = n.toNat % 2 ^ 24) ∧
  (∀ s : State, s.fileLen ≤ 0x1FFFFF → ∃ t, exec .hdrBuild s = .next t ∧ t.hdrValid = true ∧
    t.hdrbuf[52].toNat ≤ 0x1F ∧
    t.hdrbuf[52].toNat * 65536 + t.hdrbuf[53].toNat * 256 + t.hdrbuf[54].toNat = s.fileLen)

/-! ### Frame Sequencer (42_sequencer.md) -/

/-- 42_sequencer.md R87: the frame count is 1 up to 163 bytes and else 1 plus the least number of 219-byte chunks that hold the rest;
the section 8 boundary values and the largest count. -/
def Obligations.FrameCountIsLeastChunkCount : Prop :=
  (∀ n : Nat, 1 ≤ n → n ≤ 163 → frameCount n = 1) ∧
  (∀ n : Nat, 163 < n → ∃ q, frameCount n = 1 + q ∧ n - 163 ≤ q * 219 ∧ ∀ p, n - 163 ≤ p * 219 → q ≤ p) ∧
  frameCount 163 = 1 ∧ frameCount 164 = 2 ∧ frameCount 382 = 2 ∧ frameCount 383 = 3 ∧
  frameCount 2097151 = 9577 ∧ (∀ n : Nat, n ≤ 0x1FFFFF → frameCount n ≤ 9577)

/-- 42_sequencer.md R88: the geometry of every frame, its listed properties, and that the data ranges tile the file in order. -/
def Obligations.FrameGeometryTilesFile : Prop :=
  (∀ n i : Nat, 1 ≤ n → n ≤ 0x1FFFFF → 1 ≤ i → i ≤ frameCount n →
    (n ≤ 163 → frameGeom i n = { role := .single, off := 0, dlen := n, plen := 55 + n }) ∧
    (163 < n → i = 1 → frameGeom i n = { role := .first, off := 0, dlen := 163, plen := 218 }) ∧
    (163 < n → i ≠ 1 → frameGeom i n =
      { role := if i = frameCount n then .last else .middle, off := 163 + 219 * (i - 2),
        dlen := min 219 (n - (163 + 219 * (i - 2))), plen := min 219 (n - (163 + 219 * (i - 2))) }) ∧
    ((frameGeom i n).role = .middle → (frameGeom i n).dlen = 219) ∧
    ((frameGeom i n).role = .last → 1 ≤ (frameGeom i n).dlen ∧ (frameGeom i n).dlen ≤ 219) ∧
    ((frameGeom i n).role = .single →
      1 ≤ (frameGeom i n).dlen ∧ (frameGeom i n).dlen ≤ 163 ∧ (frameGeom i n).plen ≤ 218) ∧
    (frameGeom i n).plen ≤ 219) ∧
  (∀ n : Nat, 1 ≤ n → n ≤ 0x1FFFFF →
    (frameGeom 1 n).off = 0 ∧
    (∀ i : Nat, 1 ≤ i → i < frameCount n →
      (frameGeom (i + 1) n).off = (frameGeom i n).off + (frameGeom i n).dlen) ∧
    (frameGeom (frameCount n) n).off + (frameGeom (frameCount n) n).dlen = n) ∧
  (∀ (role : BitVec 8) (pay : List (BitVec 8)), pay.length = 218 →
    (encodePacket Config.typeTag role pay)[220] = 0)

/-- 42_sequencer.md R86: PLAN writes the plan of DATA_LEN and nothing else, or reports EMPTY_FILE or SIZE_LIMIT and changes nothing
else; with the rule's corner cases and example. -/
def Obligations.PlanComputesFramePlan : Prop :=
  (∀ s : State, 1 ≤ s.fileLen → s.fileLen ≤ 0x1FFFFF → exec .plan s = .next { s with
    plan := {
      mode := if s.fileLen ≤ 163 then 1 else 2
      frameCount := BitVec.ofNat 16 (frameCount s.fileLen)
      passCount := if s.fileLen ≤ 163 then 1 else 2
      lastDataLen := BitVec.ofNat 8 (frameGeom (frameCount s.fileLen) s.fileLen).dlen }
    errCode := 0 }) ∧
  (∀ s t : State, 1 ≤ s.fileLen → s.fileLen ≤ 0x1FFFFF → exec .plan s = .next t →
    t.plan.frameCount.toNat = frameCount s.fileLen ∧
    t.plan.lastDataLen.toNat = (frameGeom (frameCount s.fileLen) s.fileLen).dlen ∧
    t.status.getLsbD 2 = true ∧ exec .plan t = .next t) ∧
  (∀ s : State, s.fileLen = 0 → exec .plan s = .next { s with errCode := 0x01, errSticky := true }) ∧
  (∀ s : State, 0x1FFFFF < s.fileLen → exec .plan s = .next { s with errCode := 0x02, errSticky := true }) ∧
  (∀ s t : State, s.planInv → s.fileLen = 0 ∨ 0x1FFFFF < s.fileLen → exec .plan s = .next t →
    t.plan = { mode := 0, frameCount := 0, passCount := 0, lastDataLen := 0 }) ∧
  (∀ s : State, s.dataLen = 500 → exec .plan s = .next { s with
    plan := { mode := 2, frameCount := 3, passCount := 2, lastDataLen := 118 }, errCode := 0 }) ∧
  encode .plan = 0x20000000 ∧
  (∀ arg : BitVec 24, decode (0x20#8 ++ arg) = if arg = 0 then .ok .plan else .error .badArg)

/-- 42_sequencer.md R84: the mode of a file and the role of each of its frames, as PLAN and then FRAME_INFO report them. -/
def Obligations.PlannedFramesHaveTheirRoles : Prop :=
  (∀ s : State, 1 ≤ s.fileLen → s.fileLen ≤ 163 → ∃ t, exec .plan s = .next t ∧
    t.plan.mode = 1 ∧ t.plan.frameCount = 1 ∧
    ∃ u, exec (.frameInfo 1) t = .next u ∧ u.frame.index = 1 ∧ u.frame.role = 3 ∧ u.frame.dataOff = 0 ∧
      u.frame.dataLen.toNat = s.fileLen) ∧
  (∀ s : State, 164 ≤ s.fileLen → s.fileLen ≤ 0x1FFFFF → ∃ t, exec .plan s = .next t ∧
    t.plan.mode = 2 ∧ 2 ≤ t.plan.frameCount.toNat ∧
    ∀ i : BitVec 16, 1 ≤ i.toNat → i.toNat ≤ t.plan.frameCount.toNat →
      ∃ u, exec (.frameInfo i) t = .next u ∧ u.frame.index = i ∧
        u.frame.role = (if i = 1 then 0 else if i = t.plan.frameCount then 2 else 1) ∧
        (i = 1 → u.frame.dataOff = 0 ∧ u.frame.dataLen = 163 ∧ u.frame.payloadLen = 218) ∧
        (i ≠ 1 → u.frame.dataLen.toNat ≤ 219 ∧ u.frame.payloadLen = u.frame.dataLen))

/-- 42_sequencer.md R85: an empty file is EMPTY_FILE, an oversized one SIZE_LIMIT, never both, and in neither case can PKT_BUILD
build a packet. -/
def Obligations.LengthChecksPrecedePackets : Prop :=
  (∀ s : State, s.fileLen = 0 → exec .plan s = .next (raiseCmdError .emptyFile s)) ∧
  (∀ s : State, 0x1FFFFF < s.fileLen → exec .plan s = .next (raiseCmdError .sizeLimit s)) ∧
  (∀ s : State, ¬ (s.fileLen = 0 ∧ 0x1FFFFF < s.fileLen)) ∧
  (∀ (s : State) (i : BitVec 16), s.planInv → s.fileLen = 0 ∨ 0x1FFFFF < s.fileLen →
    exec (.pktBuild i) s = .next (raiseCmdError .notReady s))

/-- 42_sequencer.md R89: FRAME_INFO writes the FRM_ registers of a planned frame and nothing else, or reports NOT_READY or
BAD_INDEX in that order; with the rule's corner cases and example. -/
def Obligations.FrameInfoReportsGeometry : Prop :=
  (∀ (s : State) (i : BitVec 16), s.plan.mode ≠ 0 → i ≠ 0 → i.toNat ≤ s.plan.frameCount.toNat →
    exec (.frameInfo i) s = .next { s with
      frame := {
        index := i
        role := FrameRole.code (frameGeom i.toNat s.fileLen).role
        dataOff := BitVec.ofNat 21 (frameGeom i.toNat s.fileLen).off
        dataLen := BitVec.ofNat 8 (frameGeom i.toNat s.fileLen).dlen
        payloadLen := BitVec.ofNat 8 (frameGeom i.toNat s.fileLen).plen }
      errCode := 0 }) ∧
  (∀ (s : State) (i : BitVec 16), s.plan.mode = 0 →
    exec (.frameInfo i) s = .next { s with errCode := 0x03, errSticky := true }) ∧
  (∀ (s : State) (i : BitVec 16), s.plan.mode ≠ 0 → i = 0 ∨ s.plan.frameCount.toNat < i.toNat →
    exec (.frameInfo i) s = .next { s with errCode := 0x04, errSticky := true }) ∧
  (∀ s : State, s.currentPlanInv → s.plan.mode ≠ 0 → ∃ t, exec (.frameInfo s.plan.frameCount) s = .next t ∧
    t.frame.role = if s.plan.frameCount = 1 then 3 else 2) ∧
  (∀ s : State, s.dataLen = 500 → s.plan.mode ≠ 0 → 2 ≤ s.plan.frameCount.toNat →
    exec (.frameInfo 2) s = .next { s with
      frame := { index := 2, role := 1, dataOff := 163, dataLen := 219, payloadLen := 219 }, errCode := 0 }) ∧
  (∀ i : BitVec 16, encode (.frameInfo i) = 0x2100#16 ++ i) ∧
  (∀ arg : BitVec 24, decode (0x21#8 ++ arg) =
    if arg.toNat < 65536 then .ok (.frameInfo (arg.setWidth 16)) else .error .badArg)

/-! ### Packet Codec (43_packet.md) -/

/-- 43_packet.md R92: the 221 bytes of an encoded packet, one by one; payload bytes past the 219th are dropped. -/
def Obligations.EncodePacketLayout : Prop :=
  ∀ (tag role : BitVec 8) (pay : List (BitVec 8)),
    (encodePacket tag role pay).toList.length = 221 ∧
    (encodePacket tag role pay)[0] = tag ∧ (encodePacket tag role pay)[1] = role ∧
    (∀ (k : Nat) (hk : k < 219), (hp : k < pay.length) → (encodePacket tag role pay)[2 + k] = pay[k]) ∧
    (∀ (k : Nat) (hk : k < 219), pay.length ≤ k → (encodePacket tag role pay)[2 + k] = 0)

/-- PKT_BUILD of a planned frame whose SRC bytes are written (and, for frame 1, with a valid header): every byte of the packet, the
packet and frame registers, and nothing else changed. -/
def Obligations.PktBuildSerializesFrame : Prop :=
  ∀ (s : State) (i : BitVec 16) (data : List (BitVec 8)),
    s.plan.mode ≠ 0 → i ≠ 0 → i.toNat ≤ s.plan.frameCount.toNat → (i = 1 → s.hdrValid = true) →
    data.length = (frameGeom i.toNat s.fileLen).dlen →
    (∀ (k : Nat) (h : k < data.length), s.src.read ((frameGeom i.toNat s.fileLen).off + k) = some data[k]) →
    ∃ t, exec (.pktBuild i) s = .next t ∧
      t = { s with
        pktbuf := t.pktbuf
        pktValid := true
        pktInfo := {
          index := i
          payloadLen := BitVec.ofNat 8 (frameGeom i.toNat s.fileLen).plen
          role := FrameRole.code (frameGeom i.toNat s.fileLen).role }
        frame := {
          index := i
          role := FrameRole.code (frameGeom i.toNat s.fileLen).role
          dataOff := BitVec.ofNat 21 (frameGeom i.toNat s.fileLen).off
          dataLen := BitVec.ofNat 8 (frameGeom i.toNat s.fileLen).dlen
          payloadLen := BitVec.ofNat 8 (frameGeom i.toNat s.fileLen).plen }
        errCode := 0 } ∧
      t.pktbuf[0] = Config.typeTag ∧
      t.pktbuf[1] = (FrameRole.code (frameGeom i.toNat s.fileLen).role).setWidth 8 ∧
      (i = 1 → (∀ (k : Nat) (h : k < 55), t.pktbuf[2 + k] = s.hdrbuf[k]) ∧
        (∀ (k : Nat) (h : k < 164), t.pktbuf[57 + k] = data.getD k 0)) ∧
      (i ≠ 1 → ∀ (k : Nat) (h : k < 219), t.pktbuf[2 + k] = data.getD k 0)

/-- PKT_BUILD's checks in the order of its rule: no plan, bad index, frame 1 without a header, and last an unwritten SRC byte, which
stops the model. Each error writes ERR_CODE and ERR_STICKY only. -/
def Obligations.PktBuildChecksInOrder : Prop :=
  (∀ (s : State) (i : BitVec 16), s.plan.mode = 0 →
    exec (.pktBuild i) s = .next { s with errCode := 0x03, errSticky := true }) ∧
  (∀ (s : State) (i : BitVec 16), s.plan.mode ≠ 0 → i = 0 ∨ s.plan.frameCount.toNat < i.toNat →
    exec (.pktBuild i) s = .next { s with errCode := 0x04, errSticky := true }) ∧
  (∀ s : State, s.plan.mode ≠ 0 → 1 ≤ s.plan.frameCount.toNat → s.hdrValid = false →
    exec (.pktBuild 1) s = .next { s with errCode := 0x03, errSticky := true }) ∧
  (∀ (s : State) (i : BitVec 16) (k : Nat), s.plan.mode ≠ 0 → i ≠ 0 → i.toNat ≤ s.plan.frameCount.toNat →
    (i = 1 → s.hdrValid = true) → k < (frameGeom i.toNat s.fileLen).dlen →
    s.src.read ((frameGeom i.toNat s.fileLen).off + k) = none →
    exec (.pktBuild i) s = .fault .unwrittenSrcRead)

/-- In a state whose plan and header are current, the packet of frame 1 carries DATA_LEN in its size field, the filename's CRC before
it, and zeros after its payload. -/
def Obligations.FirstPacketCarriesCurrentHeader : Prop :=
  ∀ s t : State, s.currentPlanInv → s.headerInv → exec (.pktBuild 1) s = .next t → t.errCode = 0 →
    t.pktbuf[54].toNat * 65536 + t.pktbuf[55].toNat * 256 + t.pktbuf[56].toNat = s.fileLen ∧
    t.pktbuf[52].toNat * 256 + t.pktbuf[53].toNat = (crc16 (nameBytes s.fnbuf s.fnLen)).toNat ∧
    (∀ (k : Nat) (h : k < 50), t.pktbuf[2 + k] = s.fnbuf[k]) ∧
    t.pktbuf[220] = 0 ∧
    (∀ (k : Nat) (h : k < 221), s.fileLen ≤ 163 → 57 + s.fileLen ≤ k → t.pktbuf[k] = 0)

/-- 43_packet.md R93: PKT_RAW serializes min(RAW_LEN, 219) bytes from RAW_OFF with role ROLE and changes nothing else, or reports
SRC_RANGE, or stops on an unwritten byte; with the rule's corner cases and example. -/
def Obligations.PktRawSerializesRange : Prop :=
  (∀ (s : State) (role : BitVec 2) (pay : List (BitVec 8)),
    s.rawOff.toNat + min s.rawLen.toNat 219 ≤ 0x200000 → pay.length = min s.rawLen.toNat 219 →
    (∀ (k : Nat) (h : k < pay.length), s.src.read (s.rawOff.toNat + k) = some pay[k]) →
    exec (.pktRaw role) s = .next { s with
      pktbuf := encodePacket Config.typeTag (role.setWidth 8) pay
      pktValid := true
      pktInfo := { index := 0, payloadLen := BitVec.ofNat 8 (min s.rawLen.toNat 219), role := role }
      errCode := 0 }) ∧
  (∀ (s : State) (role : BitVec 2), 0x200000 < s.rawOff.toNat + min s.rawLen.toNat 219 →
    exec (.pktRaw role) s = .next { s with errCode := 0x07, errSticky := true }) ∧
  (∀ (s : State) (role : BitVec 2) (k : Nat), s.rawOff.toNat + min s.rawLen.toNat 219 ≤ 0x200000 →
    k < min s.rawLen.toNat 219 → s.src.read (s.rawOff.toNat + k) = none →
    exec (.pktRaw role) s = .fault .unwrittenSrcRead) ∧
  (∀ (s : State) (role : BitVec 2), s.rawLen = 0 → ∃ t, exec (.pktRaw role) s = .next t ∧ t.errCode = 0 ∧
    t.pktbuf[0] = Config.typeTag ∧ t.pktbuf[1] = role.setWidth 8 ∧
    ∀ (k : Nat) (h : k < 219), t.pktbuf[2 + k] = 0) ∧
  (∀ s : State, s.rawOff = 0 → s.rawLen = 1 → s.src.read 0 = some 0x41 →
    ∃ t, exec (.pktRaw 1) s = .next t ∧ readReg t .pktInfo = 0x01010000 ∧ t.pktbuf[0] = Config.typeTag ∧
      t.pktbuf[1] = 0x01 ∧ t.pktbuf[2] = 0x41 ∧ ∀ (k : Nat) (h : k < 218), t.pktbuf[3 + k] = 0) ∧
  (∀ role : BitVec 2, encode (.pktRaw role) = 0x31#8 ++ (0#22 ++ role)) ∧
  (∀ arg : BitVec 24, decode (0x31#8 ++ arg) =
    if arg.toNat < 4 then .ok (.pktRaw (arg.setWidth 2)) else .error .badArg)

/-- 43_packet.md R95: what holds of PKTBUF after any successful PKT_BUILD or PKT_RAW; and no packet tells its payload's length, since
payloads of different lengths give the same 221 bytes. -/
def Obligations.BuiltPacketsAreWellFormed : Prop :=
  (∀ (s t : State) (i : Instr), (∃ index, i = .pktBuild index) ∨ (∃ role, i = .pktRaw role) →
    exec i s = .next t → t.errCode = 0 →
    t.pktbuf.toList.length = 221 ∧ t.pktbuf[0] = Config.typeTag ∧
    t.pktbuf[1] = t.pktInfo.role.setWidth 8 ∧ t.pktbuf[1].toNat ≤ 3 ∧
    ∀ (k : Nat) (h : k < 219), t.pktInfo.payloadLen.toNat ≤ k → t.pktbuf[2 + k] = 0) ∧
  (∀ (role : BitVec 8) (pay : List (BitVec 8)), pay.length < 219 →
    encodePacket Config.typeTag role pay = encodePacket Config.typeTag role (pay ++ [0]))

/-- The packet of a frame depends on SRC, DATA_LEN, the plan and the header alone: of two states that agree on them, whatever else they
hold, the second builds the same 221 bytes and the same packet registers as the first, ends in the same error, or stops with the same
fault, so pass 2 repeats pass 1. -/
def Obligations.SecondPassRepeatsFirst : Prop :=
  ∀ (s s' : State) (i : BitVec 16),
    s'.src = s.src → s'.dataLen = s.dataLen → s'.plan = s.plan → s'.hdrValid = s.hdrValid → s'.hdrbuf = s.hdrbuf →
    (∀ t, exec (.pktBuild i) s = .next t → ∃ t', exec (.pktBuild i) s' = .next t' ∧ t'.errCode = t.errCode ∧
      (t.errCode = 0 → t'.pktbuf = t.pktbuf ∧ t'.pktInfo = t.pktInfo ∧ t'.frame = t.frame)) ∧
    (∀ f, exec (.pktBuild i) s = .fault f → exec (.pktBuild i) s' = .fault f)

/-- With a current plan, a valid header and every byte of the file in SRC, every planned frame builds, and the file bytes of
the packets in index order are the file. -/
def Obligations.PlannedPacketsReassembleFile : Prop :=
  ∀ (s : State) (file : List (BitVec 8)), s.currentPlanInv → s.plan.mode ≠ 0 → s.hdrValid = true →
    file.length = s.fileLen → (∀ (k : Nat) (h : k < file.length), s.src.read k = some file[k]) →
    ∃ built : Nat → State,
      (∀ k, k < s.plan.frameCount.toNat →
        exec (.pktBuild (BitVec.ofNat 16 (k + 1))) s = .next (built k) ∧ (built k).errCode = 0) ∧
      ((List.range s.plan.frameCount.toNat).map (fun k => (built k).packetData)).flatten = file

/-! ### Control commands (44_control.md) -/

/-- 44_control.md R96: NOP changes ERR_CODE alone. -/
def Obligations.NopReportsSuccessOnly : Prop :=
  (∀ s : State, exec .nop s = .next { s with errCode := 0 }) ∧
  (∀ s : State, s.errCode = 0x04 → s.errSticky = true →
    ∃ t, exec .nop s = .next t ∧ t.errCode = 0x00 ∧ t.errSticky = true) ∧
  encode .nop = 0x00000000 ∧
  (∀ arg : BitVec 24, decode (0x00#8 ++ arg) = if arg = 0 then .ok .nop else .error .badArg)

/-- 44_control.md R97: SOFT_RESET gives every register and buffer but SRC its reset value, and is the one command that clears
ERR_STICKY; with a reserved ARG bit nothing is reset. -/
def Obligations.SoftResetKeepsOnlySrc : Prop :=
  (∀ s : State, ∃ t, exec .softReset s = .next t ∧
    (∀ r : Reg, readReg t r = if r = .id then 0x42535231 else if r = .crcState then 0xFFFF else 0) ∧
    t.fnbuf = Vector.replicate 50 0 ∧ t.hdrbuf = Vector.replicate 55 0 ∧ t.pktbuf = Vector.replicate 221 0 ∧
    t.busy = false ∧ t.src = s.src) ∧
  (∀ (s t : State) (i : Instr), exec i s = .next t → s.errSticky = true → t.errSticky = false → i = .softReset) ∧
  encode .softReset = 0xFF000000 ∧
  (∀ arg : BitVec 24, decode (0xFF#8 ++ arg) = if arg = 0 then .ok .softReset else .error .badArg) ∧
  (∀ (s : State) (arg : BitVec 24), arg ≠ 0 →
    engineStep (0xFF#8 ++ arg) s = .next { s with pending := none, pollsLeft := 0, errCode := 0x06, errSticky := true })

/-! ### Encoding and the engine step (30_encoding.md) -/

/-- Headline: decoding the encoding of any command gives the command back, for every value of its operand. -/
def Obligations.DecodeInvertsEncode : Prop :=
  ∀ i : Instr, i.wellFormed = true → decode (encode i) = .ok i

/-- A word that decodes is the encoding of what it decodes to, so no two words decode alike. -/
def Obligations.EncodeInvertsDecode : Prop :=
  ∀ (w : BitVec 32) (i : Instr), decode w = .ok i → encode i = w

/-- 30_encoding.md R65 and R66: the match and mask of each of the eleven rows, the operand each takes, and no other legal word. -/
def Obligations.DecodeFollowsOpcodeMap : Prop :=
  ∀ w : BitVec 32,
    (w &&& 0xFFFFFFFF = 0x00000000 → decode w = .ok .nop) ∧
    (w &&& 0xFFFFFFFF = 0x01000000 → decode w = .ok .crcInit) ∧
    (w &&& 0xFFFFFF00 = 0x02000000 → decode w = .ok (.crcByte (w.extractLsb' 0 8))) ∧
    (w &&& 0xFFFFFFFF = 0x10000000 → decode w = .ok .fnClear) ∧
    (w &&& 0xFFFFFF00 = 0x11000000 → decode w = .ok (.fnPush (w.extractLsb' 0 8))) ∧
    (w &&& 0xFFFFFFFF = 0x12000000 → decode w = .ok .hdrBuild) ∧
    (w &&& 0xFFFFFFFF = 0x20000000 → decode w = .ok .plan) ∧
    (w &&& 0xFFFF0000 = 0x21000000 → decode w = .ok (.frameInfo (w.extractLsb' 0 16))) ∧
    (w &&& 0xFFFF0000 = 0x30000000 → decode w = .ok (.pktBuild (w.extractLsb' 0 16))) ∧
    (w &&& 0xFFFFFFFC = 0x31000000 → decode w = .ok (.pktRaw (w.extractLsb' 0 2))) ∧
    (w &&& 0xFFFFFFFF = 0xFF000000 → decode w = .ok .softReset) ∧
    (∀ i : Instr, decode w = .ok i → ∃ o ∈ Opcode.all, w &&& o.mask = o.pattern) ∧
    (∀ o : Opcode, o.pattern = o.byte.setWidth 32 <<< 24 ∧
      o.mask = 0xFF000000 ||| (~~~(o.argMask.setWidth 32) &&& 0x00FFFFFF))

/-- 30_encoding.md R68: the 245 unassigned opcodes end in ILLEGAL_CMD with no other effect, whatever the ARG. -/
def Obligations.UnassignedOpcodesAreIllegal : Prop :=
  ((List.range 256).filter (fun n => (Opcode.ofByte (BitVec.ofNat 8 n)).isNone)).length = 245 ∧
  ∀ (s : State) (opc : BitVec 8) (arg : BitVec 24),
    (0x03 ≤ opc.toNat ∧ opc.toNat ≤ 0x0F) ∨ (0x13 ≤ opc.toNat ∧ opc.toNat ≤ 0x1F) ∨
      (0x22 ≤ opc.toNat ∧ opc.toNat ≤ 0x2F) ∨ (0x32 ≤ opc.toNat ∧ opc.toNat ≤ 0xFE) →
    engineStep (opc ++ arg) s = .next { s with pending := none, pollsLeft := 0, errCode := 0x05, errSticky := true }

/-- 30_encoding.md R67: an assigned opcode with a reserved ARG bit set is not executed: BAD_ARG, with no other effect; so every
PKT_RAW role above 3 is unencodable. -/
def Obligations.ReservedArgBitsAreBadArg : Prop :=
  (∀ (s : State) (o : Opcode) (arg : BitVec 24), arg &&& ~~~o.argMask ≠ 0 →
    engineStep (o.byte ++ arg) s =
      .next { s with pending := none, pollsLeft := 0, errCode := 0x06, errSticky := true }) ∧
  (∀ arg : BitVec 24, 3 < arg.toNat → decode (0x31#8 ++ arg) = .error .badArg)

/-- A few words written out from the encoding tables decode to what they stand for (a sanity check). -/
def Obligations.SampleWordsDecode : Prop :=
  decode 0x00000000 = .ok .nop ∧ decode 0x02000054 = .ok (.crcByte 0x54) ∧ decode 0x110000E9 = .ok (.fnPush 0xE9) ∧
  decode 0x21002568 = .ok (.frameInfo 9576) ∧ decode 0x30000003 = .ok (.pktBuild 3) ∧
  decode 0x31000002 = .ok (.pktRaw 2) ∧ decode 0xFF000000 = .ok .softReset

/-- The engine step on the latched word. It empties the latch in every outcome, checks the opcode, then the reserved
bits, then performs the command, which ends in ERR_CODE 0 with ERR_STICKY left alone (SOFT_RESET apart, which resets both) or in one
CmdError. It is the machine's step when a word is latched and the host has nothing left to do (whose turn it is, is the model's choice,
log 2), and never the step when the latch is empty. -/
def Obligations.EngineStepFollowsRule : Prop :=
  (∀ (s : State) (w : BitVec 32),
    (Opcode.ofByte (w.extractLsb' 24 8) = none →
      engineStep w s = .next (raiseCmdError .illegalCmd { s with pending := none, pollsLeft := 0 })) ∧
    (∀ o, Opcode.ofByte (w.extractLsb' 24 8) = some o → w.extractLsb' 0 24 &&& ~~~o.argMask ≠ 0 →
      engineStep w s = .next (raiseCmdError .badArg { s with pending := none, pollsLeft := 0 })) ∧
    (∀ o, Opcode.ofByte (w.extractLsb' 24 8) = some o → w.extractLsb' 0 24 &&& ~~~o.argMask = 0 →
      engineStep w s = exec (o.instr (w.extractLsb' 0 24)) { s with pending := none, pollsLeft := 0 }) ∧
    (∀ t, engineStep w s = .next t → t.pending = none)) ∧
  (∀ (s t : State) (i : Instr), exec i s = .next t →
    (t.errCode = 0 ∧ (i ≠ .softReset → t.errSticky = s.errSticky)) ∨ (∃ e, t = raiseCmdError e s)) ∧
  (∀ (s : State) (w : BitVec 32), s.pending = some w → s.hostQueue = [] → step s = engineStep w s) ∧
  (∀ s : State, s.pending = none → step s = hostStep s)

/-- A step runs the decoded command: with a word latched that decodes to `i` and the engine's turn come, the step is `exec i` on the
state with the latch emptied and the latency counter cleared. When the engine's turn comes is the model's choice (logs 2 and 3). -/
def Obligations.StepRunsDecodedCommand : Prop :=
  ∀ (s : State) (w : BitVec 32) (i : Instr), s.pending = some w → engineTurn s = true → decode w = .ok i →
    i.wellFormed = true → step s = exec i { s with pending := none, pollsLeft := 0 }

/-! ### Command errors (60_exceptions.md) -/

/-- 60_exceptions.md R99: a command that ends in a CmdError writes ERR_CODE and ERR_STICKY and nothing else, the latch is empty after
every engine step, and the next command is accepted at once. -/
def Obligations.FailedCommandHasNoPartialEffect : Prop :=
  (∀ (s t : State) (i : Instr), exec i s = .next t → t.errCode ≠ 0 →
    t = { s with errCode := t.errCode, errSticky := true }) ∧
  (∀ (s t : State) (w : BitVec 32), engineStep w s = .next t →
    t.pending = none ∧ t.status.getLsbD 0 = false ∧
    (∀ v : BitVec 32, ∃ u, hostWrite 0x000004 4 v t = .ok u ∧ u.pending = some v ∧ u.busy = true) ∧
    (t.errCode ≠ 0 → t = { s with pending := none, pollsLeft := 0, errCode := t.errCode, errSticky := true }))

/-- 60_exceptions.md R98: each ERR_CODE value comes from its commands and its cause alone, and none above 0x07 is produced. -/
def Obligations.ErrorCodesHaveTheirCauses : Prop :=
  ∀ (s t : State) (w : BitVec 32), engineStep w s = .next t →
    t.errCode.toNat ≤ 7 ∧
    (t.errCode = 0x01 → decode w = .ok .plan ∧ s.fileLen = 0) ∧
    (t.errCode = 0x02 → (decode w = .ok .plan ∨ decode w = .ok .hdrBuild) ∧ 0x1FFFFF < s.fileLen) ∧
    (t.errCode = 0x03 →
      ((∃ i, decode w = .ok (.frameInfo i) ∨ decode w = .ok (.pktBuild i)) ∧ s.plan.mode = 0) ∨
      (decode w = .ok (.pktBuild 1) ∧ s.hdrValid = false)) ∧
    (t.errCode = 0x04 → ∃ i, (decode w = .ok (.frameInfo i) ∨ decode w = .ok (.pktBuild i)) ∧
      (i = 0 ∨ s.plan.frameCount.toNat < i.toNat)) ∧
    (t.errCode = 0x05 → Opcode.ofByte (w.extractLsb' 24 8) = none) ∧
    (t.errCode = 0x06 → ∃ o, Opcode.ofByte (w.extractLsb' 24 8) = some o ∧ w.extractLsb' 0 24 &&& ~~~o.argMask ≠ 0) ∧
    (t.errCode = 0x07 → (∃ role, decode w = .ok (.pktRaw role)) ∧
      2 ^ 21 < s.rawOff.toNat + min s.rawLen.toNat 219)

/-- 60_exceptions.md R101: ERR_CODE is written by every command, ERR_STICKY rises with every CmdError, and only a STATUS write with
bit 7 set, SOFT_RESET and power-on reset clear it. -/
def Obligations.ErrStickyClearedOnlyThreeWays : Prop :=
  (∀ (s t : State) (w : BitVec 32), engineStep w s = .next t →
    t.errCode = 0 ∨ (∃ e : CmdError, t.errCode = e.code ∧ t.errSticky = true)) ∧
  (∀ s t : State, step s = .next t → s.errSticky = true → t.errSticky = false →
    (∃ v rest, s.hostQueue = .write 0x000008 4 v :: rest ∧ v.getLsbD 7 = true) ∨
    s.latched .softReset ∨ s.resetAsserted) ∧
  (∀ (s : State) (v : BitVec 32), s.busy = false → v.getLsbD 7 = true →
    hostWrite 0x000008 4 v s = .ok { s with errSticky := false }) ∧
  (∀ s : State, ∃ t, exec .softReset s = .next t ∧ t.errSticky = false) ∧
  (∀ s : State, (powerOnReset s).errSticky = false)

/-! ### Registers and the host port (10_state.md, 20_memory.md) -/

/-- The register map of 10_state.md: what each register reads in every state. R17: ID reads its constant always and ignores writes.
R22: CRC_OUT reads the complement of CRC_STATE with its upper half 0, and 0 after reset. -/
def Obligations.RegisterMapReads : Prop :=
  (∀ (s : State) (v : BitVec 32), readReg s .id = 0x42535231 ∧
    (s.busy = false → hostWrite 0x000000 4 v s = .ok s)) ∧
  (∀ s : State, (readReg s .crcOut).extractLsb' 0 16 = (readReg s .crcState).extractLsb' 0 16 ^^^ 0xFFFF ∧
    (readReg s .crcOut).extractLsb' 16 16 = 0#16) ∧
  readReg State.reset .crcOut = 0 ∧
  ∀ s : State, s.busy = false →
    hostRead 0x000000 4 s = .ok (.word 0x42535231) ∧
    hostRead 0x000004 4 s = .ok (.word 0) ∧
    hostRead 0x000008 4 s = .ok (.word s.status) ∧
    hostRead 0x00000C 4 s = .ok (.word s.dataLen) ∧
    hostRead 0x000010 4 s = .ok (.word (s.crcState.setWidth 32)) ∧
    hostRead 0x000014 4 s = .ok (.word ((s.crcState ^^^ 0xFFFF).setWidth 32)) ∧
    hostRead 0x000018 4 s = .ok (.word (s.fnLen.setWidth 32)) ∧
    hostRead 0x00001C 4 s = .ok (.word (s.fnCrc.setWidth 32)) ∧
    hostRead 0x000020 4 s = .ok (.word (s.plan.mode.setWidth 32)) ∧
    hostRead 0x000024 4 s = .ok (.word (s.plan.frameCount.setWidth 32)) ∧
    hostRead 0x000028 4 s = .ok (.word (s.plan.passCount.setWidth 32)) ∧
    hostRead 0x00002C 4 s = .ok (.word (s.plan.lastDataLen.setWidth 32)) ∧
    hostRead 0x000030 4 s = .ok (.word (s.frame.index.setWidth 32)) ∧
    hostRead 0x000034 4 s = .ok (.word (s.frame.role.setWidth 32)) ∧
    hostRead 0x000038 4 s = .ok (.word (s.frame.dataOff.setWidth 32)) ∧
    hostRead 0x00003C 4 s = .ok (.word (s.frame.dataLen.setWidth 32)) ∧
    hostRead 0x000040 4 s = .ok (.word (s.frame.payloadLen.setWidth 32)) ∧
    hostRead 0x000044 4 s = .ok (.word (s.rawOff.setWidth 32)) ∧
    hostRead 0x000048 4 s = .ok (.word s.rawLen) ∧
    hostRead 0x00004C 4 s = .ok (.word (0#6 ++ s.pktInfo.role ++ s.pktInfo.payloadLen ++ s.pktInfo.index))

/-- The bits of STATUS in every state, and what a write to it does: bit 7 clears ERR_STICKY and nothing else changes. -/
def Obligations.StatusBitsAndWrite : Prop :=
  (∀ s : State,
    s.status.getLsbD 0 = s.pending.isSome ∧ s.status.getLsbD 1 = s.hdrValid ∧
    (s.status.getLsbD 2 = true ↔ s.plan.mode ≠ 0) ∧ s.status.getLsbD 3 = s.pktValid ∧
    s.status.getLsbD 4 = s.fnTrunc ∧ s.status.extractLsb' 5 2 = 0#2 ∧ s.status.getLsbD 7 = s.errSticky ∧
    s.status.extractLsb' 8 8 = s.errCode ∧ s.status.extractLsb' 16 16 = 0#16) ∧
  (∀ (s : State) (v : BitVec 32), s.busy = false →
    hostWrite 0x000008 4 v s = .ok { s with errSticky := if v.getLsbD 7 then false else s.errSticky }) ∧
  (∀ s : State, hostRead 0x000008 4 s = .ok (.word s.status))

/-- A CMD write while not busy latches the word and raises BUSY, and with nothing left for the host to do the engine step on that word
is next (the turn is the model's choice, log 2); while busy it is refused; CMD reads 0; the latch is empty after reset. -/
def Obligations.CmdWriteLatchesCommand : Prop :=
  (∀ (s : State) (v : BitVec 32), s.busy = false → ∃ t, hostWrite 0x000004 4 v s = .ok t ∧
    t.pending = some v ∧ t.status.getLsbD 0 = true ∧
    t = { s with pending := some v, pollsLeft := t.pollsLeft, cmdCount := t.cmdCount } ∧
    (t.hostQueue = [] → step t = engineStep v t)) ∧
  (∀ (s : State) (v : BitVec 32), s.busy = true → hostWrite 0x000004 4 v s = .error .busyAccess) ∧
  (∀ s : State, s.busy = false → hostRead 0x000004 4 s = .ok (.word 0)) ∧
  State.reset.pending = none

/-- 10_state.md R20: a DATA_LEN write stores all 32 bits and invalidates the header and the plan at once, even when the value does not
change; the commands that use a length above SIZE_MAX reject it. -/
def Obligations.DataLenWriteInvalidates : Prop :=
  (∀ (s : State) (v : BitVec 32), s.busy = false → hostWrite 0x00000C 4 v s = .ok { s with
    dataLen := v
    hdrValid := false
    plan := { mode := 0, frameCount := 0, passCount := 0, lastDataLen := 0 } }) ∧
  (∀ (s t : State) (v : BitVec 32), hostWrite 0x00000C 4 v s = .ok t →
    hostRead 0x00000C 4 t = .ok (.word v) ∧
    (0x1FFFFF < v.toNat → exec .plan t = .next (raiseCmdError .sizeLimit t) ∧
      exec .hdrBuild t = .next (raiseCmdError .sizeLimit t))) ∧
  State.reset.dataLen = 0

/-- 70_reset_and_hazards.md R117: after a DATA_LEN write every PKT_BUILD fails with NOT_READY, and after FN_CLEAR or FN_PUSH
PKT_BUILD of frame 1 does: a stale header or plan is never sent. -/
def Obligations.StaleHeaderOrPlanIsCaught : Prop :=
  (∀ (s t : State) (v : BitVec 32) (i : BitVec 16), hostWrite 0x00000C 4 v s = .ok t →
    t.hdrValid = false ∧ t.planValid = false ∧ exec (.pktBuild i) t = .next (raiseCmdError .notReady t)) ∧
  (∀ (s t : State) (i : Instr), s.planInv → i = .fnClear ∨ (∃ b, i = .fnPush b) → exec i s = .next t →
    t.hdrValid = false ∧ exec (.pktBuild 1) t = .next (raiseCmdError .notReady t))

/-- 60_exceptions.md R106: an 8-bit access to REG, a misaligned 32-bit access and any access but a 32-bit read of STATUS while BUSY are
refused; so is an access of another size than 1 or 4 bytes; of the others, those whose addresses the rules give, every write is admitted
and every read too, unless it meets an unwritten SRC byte. With the latch empty a refused access stops the machine, and an admitted
write is what the step does. 20_memory.md R47 and R49, for a block that is not busy: REG takes aligned 32-bit accesses, an 8-bit access
to it is HostFault(RegByteAccess), and a misaligned 32-bit access anywhere is HostFault(Misaligned); none is split or rotated. Where two
reasons meet, this says only that the access is refused. -/
def Obligations.HostFaultsExactly : Prop :=
  (∀ (s : State) (a : Addr) (v : BitVec 32), s.busy = false → a.toNat < 0x100 →
    hostRead a 1 s = .error .regByteAccess ∧ hostWrite a 1 v s = .error .regByteAccess ∧
    (a.toNat % 4 = 0 → (∃ x, hostRead a 4 s = .ok (.word x)) ∧ (∃ t, hostWrite a 4 v s = .ok t))) ∧
  (∀ (s : State) (a : Addr) (v : BitVec 32), s.busy = false → a.toNat % 4 ≠ 0 →
    hostWrite a 4 v s = .error .misaligned ∧
    ((a.toNat < 0x200000 ∨ ∀ j, j < 4 → s.src.read (a.toNat - 0x200000 + j) ≠ none) → hostRead a 4 s = .error .misaligned)) ∧
  (∀ (s : State) (a : Addr) (size : Nat),
    (size ≠ 1 ∧ size ≠ 4) ∨ (size = 1 ∧ a.toNat < 0x100) ∨ (size = 4 ∧ a.toNat % 4 ≠ 0) ∨
      (s.busy = true ∧ ¬ (size = 4 ∧ a = 0x000008)) →
    ∃ f, hostRead a size s = .error f) ∧
  (∀ (s : State) (a : Addr) (size : Nat),
    (size = 1 ∧ 0x100 ≤ a.toNat ∧ (a.toNat < 0x240 ∨ 0x200000 ≤ a.toNat)) ∨ (size = 4 ∧ a.toNat % 4 = 0) →
    (s.busy = true → size = 4 ∧ a = 0x000008) →
    (∃ x, hostRead a size s = .ok x) ∨
    (hostRead a size s = .error .unwrittenSrcRead ∧ 0x200000 ≤ a.toNat ∧
      ∃ j, j < size ∧ s.src.read (a.toNat - 0x200000 + j) = none)) ∧
  (∀ (s : State) (a : Addr) (size : Nat) (v : BitVec 32), (size = 1 → a.toNat < 0x240 ∨ 0x200000 ≤ a.toNat) →
    ((∃ f, hostWrite a size v s = .error f) ↔
      (size ≠ 1 ∧ size ≠ 4) ∨ (size = 1 ∧ a.toNat < 0x100) ∨ (size = 4 ∧ a.toNat % 4 ≠ 0) ∨ s.busy = true)) ∧
  (∀ (s : State) (a : Addr) (size : Nat) (rest : List HostAction) (f : Fault), s.pending = none →
    s.hostQueue = .read a size :: rest → hostRead a size s = .error f → step s = .fault f) ∧
  (∀ (s : State) (a : Addr) (size : Nat) (v : BitVec 32) (rest : List HostAction) (f : Fault), s.pending = none →
    s.hostQueue = .write a size v :: rest → hostWrite a size v s = .error f → step s = .fault f) ∧
  (∀ (s t : State) (a : Addr) (size : Nat) (v : BitVec 32) (rest : List HostAction), s.pending = none →
    s.hostQueue = .write a size v :: rest → hostWrite a size v { s with hostQueue := rest } = .ok t → step s = .next t) ∧
  (∀ (s : State) (a : Addr) (size : Nat) (rest : List HostAction) (f : Fault),
    s.hostQueue = .read a size :: rest → hostRead a size s = .error f → hostStep s = .fault f) ∧
  (∀ (s : State) (a : Addr) (size : Nat) (v : BitVec 32) (rest : List HostAction) (f : Fault),
    s.hostQueue = .write a size v :: rest → hostWrite a size v s = .error f → hostStep s = .fault f)

/-- 20_memory.md R50: in a 32-bit access to a byte window (PKTBUF, HDRBUF or SRC), byte `a + j` is bits 8j+7 to 8j, for reads of every window and writes of
SRC; a 32-bit read of PKTBUF is the shifted OR of its four bytes, those past 220 reading 0. -/
def Obligations.HostLanesAreLittleEndian : Prop :=
  (∀ (s : State) (a : Addr) (w : BitVec 32), s.busy = false → a.toNat % 4 = 0 →
    (0x100 ≤ a.toNat ∧ a.toNat < 0x240) ∨ 0x200000 ≤ a.toNat →
    (hostRead a 4 s = .ok (.word w) ↔
      ∀ j, j < 4 → hostRead (a + BitVec.ofNat 22 j) 1 s = .ok (.byte (w.extractLsb' (8 * j) 8)))) ∧
  (∀ (s : State) (a : Addr) (v : BitVec 32), s.busy = false → a.toNat % 4 = 0 → 0x200000 ≤ a.toNat →
    ∃ t, hostWrite a 4 v s = .ok t ∧
      ∀ j, j < 4 → hostRead (a + BitVec.ofNat 22 j) 1 t = .ok (.byte (v.extractLsb' (8 * j) 8))) ∧
  (∀ (s : State) (k : Nat), s.busy = false → k < 64 →
    hostRead (BitVec.ofNat 22 (0x100 + 4 * k)) 4 s = .ok (.word (
      (s.pktbuf[4 * k]?.getD 0).setWidth 32 ||| (s.pktbuf[4 * k + 1]?.getD 0).setWidth 32 <<< 8 |||
      (s.pktbuf[4 * k + 2]?.getD 0).setWidth 32 <<< 16 ||| (s.pktbuf[4 * k + 3]?.getD 0).setWidth 32 <<< 24)))

/-- 20_memory.md R52: reserved space reads 0 and ignores writes: reserved register offsets, the windows past their buffers, the
reserved region, and the register bits no rule names. -/
def Obligations.ReservedSpaceReadsZero : Prop :=
  (∀ (s : State) (a : Addr) (v : BitVec 32), s.busy = false → a.toNat % 4 = 0 → 0x50 ≤ a.toNat → a.toNat < 0x100 →
    hostRead a 4 s = .ok (.word 0) ∧ hostWrite a 4 v s = .ok s) ∧
  (∀ (s : State) (a : Addr) (v : BitVec 32), s.busy = false →
    (0x100 + 221 ≤ a.toNat ∧ a.toNat < 0x200) ∨ (0x200 + 55 ≤ a.toNat ∧ a.toNat < 0x240) →
    hostRead a 1 s = .ok (.byte 0) ∧ hostWrite a 1 v s = .ok s) ∧
  (∀ (s : State) (a : Addr) (v : BitVec 32), s.busy = false → a.toNat % 4 = 0 →
    (0x100 + 221 ≤ a.toNat ∧ a.toNat < 0x200) ∨ (0x200 + 55 ≤ a.toNat ∧ a.toNat < 0x200000) →
    hostRead a 4 s = .ok (.word 0) ∧ hostWrite a 4 v s = .ok s) ∧
  (∀ (s : State) (p : Reg × BitVec 32), p ∈ [(Reg.status, 0x0000FF9F#32), (.crcState, 0xFFFF), (.crcOut, 0xFFFF),
      (.fnLen, 0x3F), (.fnCrc, 0xFFFF), (.planMode, 0x3), (.frameCount, 0xFFFF), (.passCount, 0x3), (.lastDataLen, 0xFF),
      (.frmIndex, 0xFFFF), (.frmRole, 0x3), (.frmDataOff, 0x1FFFFF), (.frmDataLen, 0xFF), (.frmPayloadLen, 0xFF),
      (.rawOff, 0x1FFFFF), (.pktInfo, 0x03FFFFFF)] →
    readReg s p.1 &&& ~~~p.2 = 0) ∧
  (∀ (s : State) (v : BitVec 32), writeReg v s .status = writeReg (v &&& 0x80) s .status ∧
    writeReg v s .rawOff = writeReg (v &&& 0x1FFFFF) s .rawOff)

/-- 20_memory.md R53 and R54: the PKTBUF and HDRBUF windows show the buffers whatever the validity flags are, and ignore writes;
PKTBUF reads all 0 after reset. -/
def Obligations.BufferWindowsAreReadOnly : Prop :=
  (∀ (s : State) (a : Addr) (v : BitVec 32), s.busy = false → 0x100 ≤ a.toNat → a.toNat < 0x200 →
    hostRead a 1 s = .ok (.byte (s.pktbuf[a.toNat - 0x100]?.getD 0)) ∧ hostWrite a 1 v s = .ok s ∧
    (a.toNat % 4 = 0 → hostWrite a 4 v s = .ok s ∧ ∃ w, hostRead a 4 s = .ok (.word w) ∧
      ∀ j, j < 4 → w.extractLsb' (8 * j) 8 = s.pktbuf[a.toNat - 0x100 + j]?.getD 0)) ∧
  (∀ (s : State) (a : Addr) (v : BitVec 32), s.busy = false → 0x200 ≤ a.toNat → a.toNat < 0x240 →
    hostRead a 1 s = .ok (.byte (s.hdrbuf[a.toNat - 0x200]?.getD 0)) ∧ hostWrite a 1 v s = .ok s ∧
    (a.toNat % 4 = 0 → hostWrite a 4 v s = .ok s ∧ ∃ w, hostRead a 4 s = .ok (.word w) ∧
      ∀ j, j < 4 → w.extractLsb' (8 * j) 8 = s.hdrbuf[a.toNat - 0x200 + j]?.getD 0)) ∧
  (∀ a : Addr, 0x100 ≤ a.toNat → a.toNat < 0x200 → hostRead a 1 State.reset = .ok (.byte 0))

/-- 20_memory.md R55: a byte write to SRC sets one byte and a word write four, a written byte reads back as last written, an unwritten
one stops the model, and an SRC write changes nothing but the bytes it stores. -/
def Obligations.SrcWindowStoresBytes : Prop :=
  (∀ (s : State) (a : Addr) (v : BitVec 32) (size : Nat), s.busy = false → 0x200000 ≤ a.toNat →
    size = 1 ∨ (size = 4 ∧ a.toNat % 4 = 0) →
    ∃ t, hostWrite a size v s = .ok t ∧ t = { s with src := t.src } ∧
      ∀ x : Nat, t.src.read x =
        if a.toNat - 0x200000 ≤ x ∧ x < a.toNat - 0x200000 + size
        then some (v.extractLsb' (8 * (x - (a.toNat - 0x200000))) 8) else s.src.read x) ∧
  (∀ (s t : State) (a : Addr) (v : BitVec 32), 0x200000 ≤ a.toNat → hostWrite a 1 v s = .ok t →
    hostRead a 1 t = .ok (.byte (v.extractLsb' 0 8))) ∧
  (∀ (s : State) (a : Addr), s.busy = false → 0x200000 ≤ a.toNat →
    (s.src.read (a.toNat - 0x200000) = none → hostRead a 1 s = .error .unwrittenSrcRead) ∧
    (∀ b, s.src.read (a.toNat - 0x200000) = some b → hostRead a 1 s = .ok (.byte b)) ∧
    (a.toNat % 4 = 0 → (∃ j, j < 4 ∧ s.src.read (a.toNat - 0x200000 + j) = none) →
      hostRead a 4 s = .error .unwrittenSrcRead))

/-- 20_memory.md R56: reads change nothing of the block and repeat (with the latch empty a queued read that is admitted is what the step
does, and the value it returned is recorded for the host); writes to read-only registers are ignored, RAW_OFF and RAW_LEN
writes only store, CMD, DATA_LEN and STATUS writes have their side effects, and a repeated identical write is idempotent except on CMD. -/
def Obligations.ReadsHaveNoSideEffects : Prop :=
  (∀ (s t : State) (a : Addr) (size : Nat) (rest : List HostAction), s.hostQueue = .read a size :: rest →
    hostStep s = .next t → t.withHostOf s = s ∧ hostRead a size t = hostRead a size s) ∧
  (∀ (s : State) (a : Addr) (size : Nat) (x : HostValue) (rest : List HostAction), s.pending = none →
    s.hostQueue = .read a size :: rest → hostRead a size s = .ok x →
    ∃ t, step s = .next t ∧ t.hostQueue = rest ∧ t.hostReads = s.hostReads ++ [x] ∧ t.withHostOf s = s) ∧
  (∀ (s : State) (a : Addr) (v : BitVec 32), s.busy = false → a.toNat < 0x100 → a.toNat % 4 = 0 →
    a ≠ 0x04 → a ≠ 0x08 → a ≠ 0x0C → a ≠ 0x44 → a ≠ 0x48 → hostWrite a 4 v s = .ok s) ∧
  (∀ (s t : State) (v : BitVec 32),
    (hostWrite 0x04 4 v s = .ok t → t.pending = some v ∧ t.cmdCount = s.cmdCount + 1) ∧
    (hostWrite 0x08 4 v s = .ok t → v.getLsbD 7 = true → t.errSticky = false) ∧
    (hostWrite 0x0C 4 v s = .ok t → t.hdrValid = false ∧ t.planValid = false) ∧
    (hostWrite 0x44 4 v s = .ok t → t = { s with rawOff := v.extractLsb' 0 21 }) ∧
    (hostWrite 0x48 4 v s = .ok t → t = { s with rawLen := v })) ∧
  (∀ (s t : State) (a : Addr) (size : Nat) (v : BitVec 32), s.srcInv → a ≠ 0x04 → hostWrite a size v s = .ok t →
    hostWrite a size v t = .ok t)

/-! ### The two agents (70_reset_and_hazards.md) -/

/-- While a command is latched and its latency lasts, a 32-bit read of STATUS goes on, BUSY reading 1, and any other access stops the
machine; WAIT goes on at once when the latch is empty. That a command lasts a number of accesses and that WAIT is one action are the
model's choices (logs 2 and 3), and so is the fault's name where the access is also bad in another way (log 8). -/
def Obligations.BusyAllowsStatusReadsOnly : Prop :=
  (∀ (s : State) (w : BitVec 32) (rest : List HostAction), s.pending = some w → s.pollsLeft ≠ 0 →
    (s.hostQueue = .read 0x000008 4 :: rest → step s = .next { s with
      hostQueue := rest, hostReads := s.hostReads ++ [.word s.status], pollsLeft := s.pollsLeft - 1 } ∧
      s.status.getLsbD 0 = true) ∧
    (∀ a size, s.hostQueue = .read a size :: rest → ¬ (size = 4 ∧ a = 0x000008) → step s = .fault .busyAccess) ∧
    (∀ a size v, s.hostQueue = .write a size v :: rest → step s = .fault .busyAccess)) ∧
  (∀ (s : State) (rest : List HostAction), s.pending = none → s.hostQueue = .wait :: rest →
    step s = .next { s with hostQueue := rest })

/-- A host that only polls meets the engine step after at most the command's latency in polls, with the block as the CMD write
left it. That the latency counts polls is the model's choice (log 3). -/
def Obligations.EngineStepFollowsFinitelyManyPolls : Prop :=
  ∀ (s : State) (w : BitVec 32), s.pending = some w →
    (∀ x ∈ s.hostQueue, x = .read 0x000008 4 ∨ x = .wait) →
    ∃ k t, k ≤ s.pollsLeft ∧ Host.Core.run Sys2Proof.core k s = .next t ∧ t.pending = some w ∧ t.withHostOf s = s ∧
      step t = engineStep w t

/-- Power-on reset gives every register its reset value, clears the buffers, unwrites SRC and empties the latch; SOFT_RESET gives the
same block but for SRC. A step on the host's powerOn action performs the power-on reset when the latch is empty, and while a latched
command's latency lasts (when the input may come is log 11). -/
def Obligations.ResetValues : Prop :=
  (∀ r : Reg, readReg State.reset r = if r = .id then 0x42535231 else if r = .crcState then 0xFFFF else 0) ∧
  State.reset.fnbuf = Vector.replicate 50 0 ∧ State.reset.hdrbuf = Vector.replicate 55 0 ∧
  State.reset.pktbuf = Vector.replicate 221 0 ∧ (∀ x : Nat, State.reset.src.read x = none) ∧
  State.reset.pending = none ∧
  (∀ s : State, (powerOnReset s).withHostOf State.reset = State.reset) ∧
  (∀ (s : State) (rest : List HostAction), s.hostQueue = .powerOn :: rest → s.pending = none ∨ s.pollsLeft ≠ 0 →
    step s = .next (powerOnReset { s with hostQueue := rest })) ∧
  (∀ s : State, ∃ t, exec .softReset s = .next t ∧ t.withHostOf State.reset = { State.reset with src := s.src })

/-! ### Frames, invariants and whole-machine rules -/

/-- What each command leaves alone: every field outside its own and ERR_CODE (and ERR_STICKY where it can fail) is as before, and no
command changes any byte of SRC or anything of the host's. -/
def Obligations.CommandFrames : Prop :=
  ∀ s t : State,
    (∀ i : Instr, i = .nop → exec i s = .next t → t = { s with errCode := t.errCode }) ∧
    (∀ i : Instr, i = .crcInit ∨ (∃ b, i = .crcByte b) → exec i s = .next t →
      t = { s with crcState := t.crcState, errCode := t.errCode }) ∧
    (∀ i : Instr, i = .fnClear ∨ (∃ b, i = .fnPush b) → exec i s = .next t →
      t = { s with fnbuf := t.fnbuf, fnLen := t.fnLen, fnTrunc := t.fnTrunc, hdrValid := t.hdrValid,
                   errCode := t.errCode }) ∧
    (exec .hdrBuild s = .next t →
      t = { s with hdrbuf := t.hdrbuf, fnCrc := t.fnCrc, crcState := t.crcState, hdrValid := t.hdrValid,
                   errCode := t.errCode, errSticky := t.errSticky }) ∧
    (exec .plan s = .next t → t = { s with plan := t.plan, errCode := t.errCode, errSticky := t.errSticky }) ∧
    (∀ i, exec (.frameInfo i) s = .next t →
      t = { s with frame := t.frame, errCode := t.errCode, errSticky := t.errSticky }) ∧
    (∀ i, exec (.pktBuild i) s = .next t →
      t = { s with pktbuf := t.pktbuf, pktValid := t.pktValid, pktInfo := t.pktInfo, frame := t.frame,
                   errCode := t.errCode, errSticky := t.errSticky }) ∧
    (∀ role, exec (.pktRaw role) s = .next t →
      t = { s with pktbuf := t.pktbuf, pktValid := t.pktValid, pktInfo := t.pktInfo,
                   errCode := t.errCode, errSticky := t.errSticky }) ∧
    (∀ i : Instr, exec i s = .next t → (∀ x : Nat, t.src.read x = s.src.read x) ∧
      t.hostQueue = s.hostQueue ∧ t.hostReads = s.hostReads ∧ t.cmdCount = s.cmdCount)

/-- Over every step of the machine: CRC_STATE, the buffers and PKT_VALID are written by the commands the spec names for them and by
the reset input only, and SRC by host writes to its window and the reset input only. -/
def Obligations.OnlyNamedWritersWriteState : Prop :=
  ∀ s t : State, step s = .next t → ¬ s.resetAsserted → ¬ s.latched .softReset →
    (t.crcState ≠ s.crcState → s.latched .crcInit ∨ (∃ b, s.latched (.crcByte b)) ∨ s.latched .hdrBuild) ∧
    (t.fnbuf ≠ s.fnbuf → s.latched .fnClear ∨ ∃ b, s.latched (.fnPush b)) ∧
    (t.hdrbuf ≠ s.hdrbuf → s.latched .hdrBuild) ∧
    (t.pktbuf ≠ s.pktbuf → (∃ i, s.latched (.pktBuild i)) ∨ ∃ role, s.latched (.pktRaw role)) ∧
    (t.src ≠ s.src → ∃ a size v rest, s.hostQueue = .write a size v :: rest ∧ 0x200000 ≤ a.toNat) ∧
    (t.pktValid ≠ s.pktValid → (∃ i, s.latched (.pktBuild i)) ∨ ∃ role, s.latched (.pktRaw role)) ∧
    (s.pktValid = true → t.pktValid = true)

/-- Headline, 10_state.md R43: every step of either agent keeps the spec's invariants. -/
def Obligations.StepKeepsSpecInvariants : Prop :=
  ∀ s t : State, s.planInv → s.headerInv → s.nameInv → step s = .next t → t.planInv ∧ t.headerInv ∧ t.nameInv

/-- Headline: every step keeps the plan registers those of the current DATA_LEN and the FRM_ registers in their ranges. -/
def Obligations.StepKeepsPlanCurrent : Prop :=
  ∀ s t : State, s.currentPlanInv → s.frameInv → step s = .next t → t.currentPlanInv ∧ t.frameInv

/-- Headline: every step keeps PKTBUF a well-formed packet carrying the type tag while PKT_VALID is 1, and ERR_CODE at 0x07 or less. -/
def Obligations.StepKeepsPacketWellFormed : Prop :=
  ∀ s t : State, s.packetInv → s.errCodeInv → step s = .next t → t.packetInv ∧ t.errCodeInv

/-- Headline: every step keeps SRC in its canonical form, the sorted list of written bytes that the model holds SRC in. -/
def Obligations.StepKeepsSrcCanonical : Prop :=
  ∀ s t : State, s.srcInv → step s = .next t → t.srcInv

/-- The reset state meets every invariant. -/
def Obligations.ResetMeetsInvariants : Prop :=
  State.reset.planInv ∧ State.reset.headerInv ∧ State.reset.nameInv ∧ State.reset.currentPlanInv ∧
  State.reset.frameInv ∧ State.reset.packetInv ∧ State.reset.errCodeInv ∧ State.reset.srcInv

/-! ### The host port where its rules leave a point open -/

/-- What the port answers where its rules leave a point open, each answer the model's choice. Byte accesses to the reserved region
0x000240 to 0x1FFFFF read 0 and are ignored (log 9, DEDUCED). While busy every access but the 32-bit STATUS read is refused as
busyAccess, whatever else is wrong with it; of the rest a size other than 1 or 4 bytes as badSize, and a misaligned 32-bit read as
misaligned whether or not its bytes are written (the order and the name are log 8, DESIGN CHOICE). -/
def Obligations.OpenHostAccessesFollowLogs : Prop :=
  (∀ (s : State) (a : Addr) (v : BitVec 32), s.busy = false → 0x240 ≤ a.toNat → a.toNat < 0x200000 →
    hostRead a 1 s = .ok (.byte 0) ∧ hostWrite a 1 v s = .ok s) ∧
  (∀ (s : State) (a : Addr) (size : Nat) (v : BitVec 32), s.busy = true →
    hostWrite a size v s = .error .busyAccess ∧
    (¬ (size = 4 ∧ a = 0x000008) → hostRead a size s = .error .busyAccess)) ∧
  (∀ (s : State) (a : Addr) (size : Nat) (v : BitVec 32), s.busy = false → size ≠ 1 → size ≠ 4 →
    hostRead a size s = .error .badSize ∧ hostWrite a size v s = .error .badSize) ∧
  (∀ (s : State) (a : Addr), s.busy = false → a.toNat % 4 ≠ 0 → hostRead a 4 s = .error .misaligned)
end

