-- ==== Sys2Proof/Laws/Commands.lean ====
section
/-! SUPPORT. What each meaning can answer: one lemma per command that can end in more than one way, so that later proofs cite it
instead of unfolding the meaning. -/

namespace Sys2Proof.Machine

variable {s t : State}

theorem execFnPush_of_room (byte : BitVec 8) (h : s.fnLen.toNat < 50) :
    execFnPush byte s = .next (succeed { s with
      fnbuf := s.fnbuf.set s.fnLen.toNat (mapByte byte) h, fnLen := s.fnLen + 1, hdrValid := false }) := by
  simp [execFnPush, h]

theorem execFnPush_of_full (byte : BitVec 8) (h : ¬ s.fnLen.toNat < 50) :
    execFnPush byte s = .next (succeed { s with fnTrunc := true, hdrValid := false }) := by
  simp [execFnPush, h]

/-- FN_PUSH stores the byte or drops it (41_header.md R80). -/
theorem execFnPush_next {byte : BitVec 8} (h : execFnPush byte s = .next t) :
    (∃ hr : s.fnLen.toNat < 50, t = succeed { s with
      fnbuf := s.fnbuf.set s.fnLen.toNat (mapByte byte) hr, fnLen := s.fnLen + 1, hdrValid := false }) ∨
    (¬ s.fnLen.toNat < 50 ∧ t = succeed { s with fnTrunc := true, hdrValid := false }) := by
  unfold execFnPush at h
  split at h
  · rename_i hr; exact .inl ⟨hr, by injection h with h; exact h.symm⟩
  · rename_i hr; exact .inr ⟨hr, by injection h with h; exact h.symm⟩

/-- HDR_BUILD rejects an oversized file or builds the header (41_header.md R81). -/
theorem execHdrBuild_next (h : execHdrBuild s = .next t) :
    (Config.sizeMax < s.fileLen ∧ t = raiseCmdError .sizeLimit s) ∨
    (s.fileLen ≤ Config.sizeMax ∧ t = succeed { s with
      hdrbuf := encodeHeader s.fnbuf s.fnLen s.dataLen
      fnCrc := crcFold Config.crcInit (nameBytes s.fnbuf s.fnLen) ^^^ Config.crcXorOut
      crcState := crcFold Config.crcInit (nameBytes s.fnbuf s.fnLen)
      hdrValid := true }) := by
  unfold execHdrBuild at h
  split at h
  · exact .inl ⟨‹_›, by injection h with h; exact h.symm⟩
  · exact .inr ⟨by omega, by injection h with h; exact h.symm⟩

/-- PLAN rejects an empty or oversized file or writes the plan registers (42_sequencer.md R86). -/
theorem execPlan_next (h : execPlan s = .next t) :
    (s.fileLen = 0 ∧ t = raiseCmdError .emptyFile s) ∨
    (Config.sizeMax < s.fileLen ∧ t = raiseCmdError .sizeLimit s) ∨
    (1 ≤ s.fileLen ∧ s.fileLen ≤ Config.sizeMax ∧ t = succeed { s with plan := planRegs s.fileLen }) := by
  unfold execPlan at h
  split at h
  · exact .inl ⟨‹_›, by injection h with h; exact h.symm⟩
  · split at h
    · exact .inr (.inl ⟨‹_›, by injection h with h; exact h.symm⟩)
    · exact .inr (.inr ⟨by omega, by omega, by injection h with h; exact h.symm⟩)

/-- FRAME_INFO needs a plan and an index in it, and writes the FRM_ registers (42_sequencer.md R89). -/
theorem execFrameInfo_next {index : BitVec 16} (h : execFrameInfo index s = .next t) :
    (s.plan.mode = 0 ∧ t = raiseCmdError .notReady s) ∨
    (s.plan.mode ≠ 0 ∧ s.indexOutOfPlan index = true ∧ t = raiseCmdError .badIndex s) ∨
    (s.plan.mode ≠ 0 ∧ s.indexOutOfPlan index = false ∧
      t = succeed { s with frame := frameRegs index (frameGeom index.toNat s.fileLen) }) := by
  unfold execFrameInfo at h
  split at h
  · exact .inl ⟨‹_›, by injection h with h; exact h.symm⟩
  · split at h
    · exact .inr (.inl ⟨‹_›, ‹_›, by injection h with h; exact h.symm⟩)
    · exact .inr (.inr ⟨‹_›, Bool.eq_false_of_not_eq_true ‹¬ s.indexOutOfPlan index = true›, by injection h with h; exact h.symm⟩)

/-- What PKT_BUILD leaves when it succeeds with the data bytes `data` (43_packet.md R91). -/
def builtPacket (index : BitVec 16) (data : List (BitVec 8)) (s : State) : State :=
  succeed (storePacket
    (encodePacket Config.typeTag (roleByte (FrameRole.code (frameGeom index.toNat s.fileLen).role))
      (framePayload index s.hdrbuf data))
    { index := index, payloadLen := BitVec.ofNat 8 (frameGeom index.toNat s.fileLen).plen,
      role := FrameRole.code (frameGeom index.toNat s.fileLen).role }
    { s with frame := frameRegs index (frameGeom index.toNat s.fileLen) })

/-- PKT_BUILD's checks in order, then the packet (43_packet.md R91). -/
theorem execPktBuild_next {index : BitVec 16} (h : execPktBuild index s = .next t) :
    (s.plan.mode = 0 ∧ t = raiseCmdError .notReady s) ∨
    (s.plan.mode ≠ 0 ∧ s.indexOutOfPlan index = true ∧ t = raiseCmdError .badIndex s) ∨
    (s.plan.mode ≠ 0 ∧ s.indexOutOfPlan index = false ∧ index = 1 ∧ s.hdrValid = false ∧
      t = raiseCmdError .notReady s) ∨
    (s.plan.mode ≠ 0 ∧ s.indexOutOfPlan index = false ∧ (index = 1 → s.hdrValid = true) ∧
      ∃ data, s.src.readRange (frameGeom index.toNat s.fileLen).off (frameGeom index.toNat s.fileLen).dlen = some data ∧
        t = builtPacket index data s) := by
  unfold execPktBuild at h
  split at h
  · exact .inl ⟨‹_›, by injection h with h; exact h.symm⟩
  · split at h
    · exact .inr (.inl ⟨‹_›, ‹_›, by injection h with h; exact h.symm⟩)
    · have hi : s.indexOutOfPlan index = false := by simpa using ‹¬ s.indexOutOfPlan index = true›
      split at h
      · rename_i hv
        exact .inr (.inr (.inl ⟨‹_›, hi, hv.1, hv.2, by injection h with h; exact h.symm⟩))
      · rename_i hv
        refine .inr (.inr (.inr ⟨‹_›, hi, fun h1 => by simpa [h1] using hv, ?_⟩))
        dsimp only at h
        split at h
        · cases h
        · rename_i data hd
          exact ⟨data, hd, by injection h with h; exact h.symm⟩

/-- PKT_BUILD with every check passed and every byte of the frame written. -/
theorem execPktBuild_eq {index : BitVec 16} {data : List (BitVec 8)} (hm : s.plan.mode ≠ 0)
    (hi : s.indexOutOfPlan index = false) (hv : index = 1 → s.hdrValid = true)
    (hd : s.src.readRange (frameGeom index.toNat s.fileLen).off (frameGeom index.toNat s.fileLen).dlen = some data) :
    execPktBuild index s = .next (builtPacket index data s) := by
  have hv' : ¬ (index = 1 ∧ s.hdrValid = false) := fun h => by simp [hv h.1] at h
  unfold execPktBuild
  rw [if_neg hm, if_neg (by simp [hi]), if_neg hv']
  dsimp only
  rw [hd]
  rfl

/-- What PKT_RAW leaves when it succeeds with the payload `pay` (43_packet.md R93). -/
def rawPacket (role : BitVec 2) (pay : List (BitVec 8)) (s : State) : State :=
  succeed (storePacket (encodePacket Config.typeTag (roleByte role) pay)
    { index := 0, payloadLen := BitVec.ofNat 8 s.rawCount, role := role } s)

/-- PKT_RAW's range check, then the packet (43_packet.md R93). -/
theorem execPktRaw_next {role : BitVec 2} (h : execPktRaw role s = .next t) :
    (Config.srcBytes < s.rawOff.toNat + s.rawCount ∧ t = raiseCmdError .srcRange s) ∨
    (s.rawOff.toNat + s.rawCount ≤ Config.srcBytes ∧
      ∃ pay, s.src.readRange s.rawOff.toNat s.rawCount = some pay ∧ t = rawPacket role pay s) := by
  unfold execPktRaw at h
  split at h
  · exact .inl ⟨‹_›, by injection h with h; exact h.symm⟩
  · split at h
    · cases h
    · rename_i pay hp
      exact .inr ⟨by omega, pay, hp, by injection h with h; exact h.symm⟩

/-- PKT_RAW with the range inside SRC and every byte of it written. -/
theorem execPktRaw_eq {role : BitVec 2} {pay : List (BitVec 8)}
    (hr : s.rawOff.toNat + s.rawCount ≤ Config.srcBytes)
    (hp : s.src.readRange s.rawOff.toNat s.rawCount = some pay) :
    execPktRaw role s = .next (rawPacket role pay s) := by
  have : ¬ Config.srcBytes < s.rawOff.toNat + s.rawCount := by omega
  simp [execPktRaw, this, hp, rawPacket]

/-- Byte `k` of a packet (43_packet.md R92). -/
theorem encodePacket_getElem (tag role : BitVec 8) (pay : List (BitVec 8)) (k : Nat) (h : k < 221) :
    (encodePacket tag role pay)[k] = if k = 0 then tag else if k = 1 then role else pay.getD (k - 2) 0 := by
  match k, h with
  | 0, _ => rfl
  | 1, _ => rfl
  | k + 2, h =>
    have hk : k < 219 := by omega
    simp only [encodePacket, payloadRegion, Vector.getElem_mk, List.getElem_toArray, List.getElem_cons_succ,
      Nat.add_eq_zero_iff, List.getD_eq_getElem?_getD]
    rw [List.getElem_append]
    split
    · rename_i hl
      simp only [List.length_take] at hl
      simp [List.getElem_take, List.getElem?_eq_getElem (show k < pay.length by omega)]
    · rename_i hl
      simp only [List.length_take] at hl
      simp [List.getElem?_eq_none (show pay.length ≤ k by omega)]

/-- The bytes of a header in order (41_header.md R82). -/
theorem encodeHeader_toList (fn : Vector (BitVec 8) 50) (len : BitVec 6) (n : BitVec 32) :
    (encodeHeader fn len n).toList = fn.toList ++
      [(crc16 (nameBytes fn len)).extractLsb' 8 8, (crc16 (nameBytes fn len)).extractLsb' 0 8,
       n.extractLsb' 16 8, n.extractLsb' 8 8, n.extractLsb' 0 8] := by
  refine (Vector.toList_append (xs := fn ++ crcField _) (ys := sizeField n)).trans ?_
  rw [Vector.toList_append]
  simp [crcField, sizeField]

end Sys2Proof.Machine
end

