-- ==== Sys2Proof/Laws/Memory.lean ====
section
/-! SUPPORT. The laws of SRC: a read after a write, what a write leaves alone, the canonical form, and what a range read gives. -/

namespace Sys2Proof.Machine

@[simp] theorem Memory.read_nil (a : Nat) : Memory.read [] a = none := rfl

/-- A read after a write to the same offset gives the byte written (20_memory.md R55). -/
@[simp] theorem Memory.read_write_same (a : Nat) (b : BitVec 8) (m : Memory) : (m.write a b).read a = some b := by
  induction m with
  | nil => simp [Memory.write, Memory.read]
  | cons p m ih =>
    obtain ⟨k, c⟩ := p
    unfold Memory.write
    split
    · simp [Memory.read]
    · split
      · simp_all [Memory.read]
      · have : k ≠ a := by omega
        simp [Memory.read, this, ih]

/-- A write leaves every other offset alone. -/
theorem Memory.read_write_other {a x : Nat} (b : BitVec 8) (m : Memory) (h : x ≠ a) :
    (m.write a b).read x = m.read x := by
  induction m with
  | nil => simp [Memory.write, Memory.read, h.symm]
  | cons p m ih =>
    obtain ⟨k, c⟩ := p
    unfold Memory.write
    split
    · simp [Memory.read, h.symm]
    · split
      · rename_i hk; subst hk; simp [Memory.read, h.symm]
      · simp [Memory.read, ih]

/-- Reading any offset after a write. -/
theorem Memory.read_write (a x : Nat) (b : BitVec 8) (m : Memory) :
    (m.write a b).read x = if x = a then some b else m.read x := by
  split
  · subst x; simp
  · exact Memory.read_write_other b m ‹_›

theorem Memory.wfFrom_mono {m : Memory} {lo lo' : Nat} (h : lo' ≤ lo) (hw : Memory.wfFrom lo m = true) :
    Memory.wfFrom lo' m = true := by
  cases m with
  | nil => rfl
  | cons p m =>
    simp only [Memory.wfFrom, Bool.and_eq_true, decide_eq_true_eq] at *
    exact ⟨⟨by omega, hw.1.2⟩, hw.2⟩

theorem Memory.wfFrom_write {m : Memory} {lo a : Nat} (b : BitVec 8) (hlo : lo ≤ a) (ha : a < Config.srcBytes)
    (hw : Memory.wfFrom lo m = true) : Memory.wfFrom lo (m.write a b) = true := by
  induction m generalizing lo with
  | nil => simp [Memory.write, Memory.wfFrom, hlo, ha]
  | cons p m ih =>
    obtain ⟨k, c⟩ := p
    simp only [Memory.wfFrom, Bool.and_eq_true, decide_eq_true_eq] at hw
    obtain ⟨⟨h1, h2⟩, h3⟩ := hw
    unfold Memory.write
    split
    · simp only [Memory.wfFrom, Bool.and_eq_true, decide_eq_true_eq]
      exact ⟨⟨hlo, ha⟩, ⟨⟨by omega, h2⟩, h3⟩⟩
    · split
      · simp only [Memory.wfFrom, Bool.and_eq_true, decide_eq_true_eq]
        exact ⟨⟨h1, h2⟩, h3⟩
      · simp only [Memory.wfFrom, Bool.and_eq_true, decide_eq_true_eq]
        exact ⟨⟨h1, h2⟩, ih (by omega) h3⟩

/-- A write to an offset below `SRC_BYTES` keeps the canonical form. -/
theorem Memory.wf_write {m : Memory} {a : Nat} (b : BitVec 8) (ha : a < Config.srcBytes) (hw : m.wf = true) :
    (m.write a b).wf = true := Memory.wfFrom_write b (Nat.zero_le a) ha hw

/-- The memory of the reset state is in canonical form. -/
theorem reset_src_wf : State.reset.src.wf = true := rfl

/-- A host write inside the SRC window keeps the canonical form. -/
theorem writeSrc_wf {m : Memory} {a size : Nat} (v : BitVec 32) (ha : a + (if size = 1 then 1 else 4) ≤ Config.srcBytes)
    (hw : m.wf = true) : (writeSrc a size v m).wf = true := by
  unfold writeSrc
  split at ha
  · rw [if_pos ‹_›]; exact Memory.wf_write _ (by omega) hw
  · rw [if_neg ‹_›]
    exact Memory.wf_write _ (by omega) (Memory.wf_write _ (by omega)
      (Memory.wf_write _ (by omega) (Memory.wf_write _ (by omega) hw)))

/-- What a host write to SRC leaves at every offset: lane `j` at `a + j` for the bytes of its width, and nothing else changed
(20_memory.md R50, R55). -/
theorem read_writeSrc (m : Memory) (a size : Nat) (v : BitVec 32) (x : Nat) :
    (writeSrc a size v m).read x =
      if a ≤ x ∧ x < a + (if size = 1 then 1 else 4) then some (lane v (x - a)) else m.read x := by
  by_cases hs : size = 1
  · simp only [writeSrc, hs, if_true, Memory.read_write]
    by_cases hx : x = a
    · subst hx; simp
    · rw [if_neg hx, if_neg (by omega)]
  · simp only [writeSrc, hs, if_false, Memory.read_write]
    by_cases h3 : x = a + 3
    · subst h3; simp
    · by_cases h2 : x = a + 2
      · subst h2; simp
      · by_cases h1 : x = a + 1
        · subst h1; simp
        · by_cases h0 : x = a
          · subst h0; simp
          · rw [if_neg h3, if_neg h2, if_neg h1, if_neg h0, if_neg (by omega)]

/-- A range read gives `n` bytes. -/
theorem Memory.readRange_length {m : Memory} {a n : Nat} {bs : List (BitVec 8)} (h : m.readRange a n = some bs) :
    bs.length = n := by
  induction n generalizing a bs with
  | zero => simp [Memory.readRange] at h; simp [← h]
  | succ n ih =>
    unfold Memory.readRange at h
    split at h
    · rename_i b cs _ hcs
      simp only [Option.some.injEq] at h
      rw [← h]; simp [ih hcs]
    · cases h

/-- A range read gives the bytes of the range, in address order (00_scope.md R13). -/
theorem Memory.readRange_eq_some_iff (m : Memory) (a n : Nat) (bs : List (BitVec 8)) :
    m.readRange a n = some bs ↔ bs.length = n ∧ ∀ k, k < n → m.read (a + k) = bs[k]? := by
  induction n generalizing a bs with
  | zero => cases bs <;> simp [Memory.readRange]
  | succ n ih =>
    constructor
    · intro h
      refine ⟨Memory.readRange_length h, ?_⟩
      unfold Memory.readRange at h
      split at h
      · rename_i b cs hb hcs
        simp only [Option.some.injEq] at h
        subst h
        intro k hk
        cases k with
        | zero => simpa using hb
        | succ k =>
          have := ((ih (a + 1) cs).1 hcs).2 k (by omega)
          rw [show a + (k + 1) = a + 1 + k by omega, this]; rfl
      · cases h
    · rintro ⟨hl, h⟩
      cases bs with
      | nil => simp at hl
      | cons b cs =>
        have h0 := h 0 (by omega)
        have hcs : m.readRange (a + 1) n = some cs := (ih (a + 1) cs).2
          ⟨by simpa using hl, fun k hk => by
            have := h (k + 1) (by omega)
            rw [show a + 1 + k = a + (k + 1) by omega, this]; rfl⟩
        unfold Memory.readRange
        simp only [Nat.add_zero, List.getElem?_cons_zero] at h0
        simp [h0, hcs]

/-- A range read fails exactly when some byte of the range is unwritten (60_exceptions.md R107). -/
theorem Memory.readRange_eq_none_iff (m : Memory) (a n : Nat) :
    m.readRange a n = none ↔ ∃ k, k < n ∧ m.read (a + k) = none := by
  induction n generalizing a with
  | zero => simp [Memory.readRange]
  | succ n ih =>
    unfold Memory.readRange
    constructor
    · intro h
      split at h
      · cases h
      · rename_i hno
        cases hb : m.read a with
        | none => exact ⟨0, by omega, hb⟩
        | some b =>
          cases hcs : m.readRange (a + 1) n with
          | none =>
            obtain ⟨k, hk, hr⟩ := (ih (a + 1)).1 hcs
            exact ⟨k + 1, by omega, by rw [← hr]; congr 1; omega⟩
          | some cs => exact absurd hcs (hno b cs hb)
    · rintro ⟨k, hk, hr⟩
      cases k with
      | zero => simp only [Nat.add_zero] at hr; simp [hr]
      | succ k =>
        have : m.readRange (a + 1) n = none := (ih (a + 1)).2 ⟨k, by omega, by rw [← hr]; congr 1; omega⟩
        simp [this]

/-- In canonical form every offset below the least listed one is unwritten. -/
theorem Memory.read_eq_none_of_wfFrom {m : Memory} {lo x : Nat} (h : x < lo) (hw : Memory.wfFrom lo m = true) :
    m.read x = none := by
  induction m generalizing lo with
  | nil => rfl
  | cons p m ih =>
    obtain ⟨k, c⟩ := p
    simp only [Memory.wfFrom, Bool.and_eq_true, decide_eq_true_eq] at hw
    simp [Memory.read, show k ≠ x by omega, ih (show x < k + 1 by omega) hw.2]

/-- Equal memories are equal data: two memories in canonical form that read alike at every offset are equal. -/
theorem Memory.ext_of_wfFrom {m m' : Memory} {lo : Nat} (hw : Memory.wfFrom lo m = true)
    (hw' : Memory.wfFrom lo m' = true) (h : ∀ x, m.read x = m'.read x) : m = m' := by
  induction m generalizing lo m' with
  | nil =>
    cases m' with
    | nil => rfl
    | cons p m' => have := h p.1; simp [Memory.read] at this
  | cons p m ih =>
    obtain ⟨k, c⟩ := p
    cases m' with
    | nil => have := h k; simp [Memory.read] at this
    | cons p' m' =>
      obtain ⟨k', c'⟩ := p'
      simp only [Memory.wfFrom, Bool.and_eq_true, decide_eq_true_eq] at hw hw'
      have hkk : k = k' := by
        by_contra hne
        rcases Nat.lt_or_gt_of_ne hne with hl | hl
        · have := h k
          simp [Memory.read, show k' ≠ k by omega, Memory.read_eq_none_of_wfFrom (show k < k' + 1 by omega) hw'.2] at this
        · have := h k'
          simp [Memory.read, hne, Memory.read_eq_none_of_wfFrom (show k' < k + 1 by omega) hw.2] at this
      subst hkk
      have hc : c = c' := by have := h k; simpa [Memory.read] using this
      subst hc
      congr 1
      refine ih hw.2 hw'.2 fun x => ?_
      by_cases hx : k = x
      · subst hx
        rw [Memory.read_eq_none_of_wfFrom (Nat.lt_succ_self k) hw.2, Memory.read_eq_none_of_wfFrom (Nat.lt_succ_self k) hw'.2]
      · have := h x; simpa [Memory.read, hx] using this

end Sys2Proof.Machine
end

