-- ==== Sys2Proof/Laws/State.lean ====
section
/-! SUPPORT. What each named update of the state leaves in each field: one lemma per field per update, so that no later proof
unfolds a record update. -/

namespace Sys2Proof.Machine

section updates
variable (s : State)

@[simp] theorem succeed_pending : (succeed s).pending = s.pending := rfl
@[simp] theorem succeed_hdrValid : (succeed s).hdrValid = s.hdrValid := rfl
@[simp] theorem succeed_pktValid : (succeed s).pktValid = s.pktValid := rfl
@[simp] theorem succeed_fnTrunc : (succeed s).fnTrunc = s.fnTrunc := rfl
@[simp] theorem succeed_errSticky : (succeed s).errSticky = s.errSticky := rfl
@[simp] theorem succeed_errCode : (succeed s).errCode = 0 := rfl
@[simp] theorem succeed_dataLen : (succeed s).dataLen = s.dataLen := rfl
@[simp] theorem succeed_crcState : (succeed s).crcState = s.crcState := rfl
@[simp] theorem succeed_fnLen : (succeed s).fnLen = s.fnLen := rfl
@[simp] theorem succeed_fnCrc : (succeed s).fnCrc = s.fnCrc := rfl
@[simp] theorem succeed_plan : (succeed s).plan = s.plan := rfl
@[simp] theorem succeed_frame : (succeed s).frame = s.frame := rfl
@[simp] theorem succeed_rawOff : (succeed s).rawOff = s.rawOff := rfl
@[simp] theorem succeed_rawLen : (succeed s).rawLen = s.rawLen := rfl
@[simp] theorem succeed_pktInfo : (succeed s).pktInfo = s.pktInfo := rfl
@[simp] theorem succeed_fnbuf : (succeed s).fnbuf = s.fnbuf := rfl
@[simp] theorem succeed_hdrbuf : (succeed s).hdrbuf = s.hdrbuf := rfl
@[simp] theorem succeed_pktbuf : (succeed s).pktbuf = s.pktbuf := rfl
@[simp] theorem succeed_src : (succeed s).src = s.src := rfl
@[simp] theorem succeed_hostQueue : (succeed s).hostQueue = s.hostQueue := rfl
@[simp] theorem succeed_hostReads : (succeed s).hostReads = s.hostReads := rfl
@[simp] theorem succeed_pollsLeft : (succeed s).pollsLeft = s.pollsLeft := rfl
@[simp] theorem succeed_cmdCount : (succeed s).cmdCount = s.cmdCount := rfl

@[simp] theorem raiseCmdError_pending (e : CmdError) : (raiseCmdError e s).pending = s.pending := rfl
@[simp] theorem raiseCmdError_hdrValid (e : CmdError) : (raiseCmdError e s).hdrValid = s.hdrValid := rfl
@[simp] theorem raiseCmdError_pktValid (e : CmdError) : (raiseCmdError e s).pktValid = s.pktValid := rfl
@[simp] theorem raiseCmdError_fnTrunc (e : CmdError) : (raiseCmdError e s).fnTrunc = s.fnTrunc := rfl
@[simp] theorem raiseCmdError_errSticky (e : CmdError) : (raiseCmdError e s).errSticky = true := rfl
@[simp] theorem raiseCmdError_errCode (e : CmdError) : (raiseCmdError e s).errCode = e.code := rfl
@[simp] theorem raiseCmdError_dataLen (e : CmdError) : (raiseCmdError e s).dataLen = s.dataLen := rfl
@[simp] theorem raiseCmdError_crcState (e : CmdError) : (raiseCmdError e s).crcState = s.crcState := rfl
@[simp] theorem raiseCmdError_fnLen (e : CmdError) : (raiseCmdError e s).fnLen = s.fnLen := rfl
@[simp] theorem raiseCmdError_fnCrc (e : CmdError) : (raiseCmdError e s).fnCrc = s.fnCrc := rfl
@[simp] theorem raiseCmdError_plan (e : CmdError) : (raiseCmdError e s).plan = s.plan := rfl
@[simp] theorem raiseCmdError_frame (e : CmdError) : (raiseCmdError e s).frame = s.frame := rfl
@[simp] theorem raiseCmdError_rawOff (e : CmdError) : (raiseCmdError e s).rawOff = s.rawOff := rfl
@[simp] theorem raiseCmdError_rawLen (e : CmdError) : (raiseCmdError e s).rawLen = s.rawLen := rfl
@[simp] theorem raiseCmdError_pktInfo (e : CmdError) : (raiseCmdError e s).pktInfo = s.pktInfo := rfl
@[simp] theorem raiseCmdError_fnbuf (e : CmdError) : (raiseCmdError e s).fnbuf = s.fnbuf := rfl
@[simp] theorem raiseCmdError_hdrbuf (e : CmdError) : (raiseCmdError e s).hdrbuf = s.hdrbuf := rfl
@[simp] theorem raiseCmdError_pktbuf (e : CmdError) : (raiseCmdError e s).pktbuf = s.pktbuf := rfl
@[simp] theorem raiseCmdError_src (e : CmdError) : (raiseCmdError e s).src = s.src := rfl
@[simp] theorem raiseCmdError_hostQueue (e : CmdError) : (raiseCmdError e s).hostQueue = s.hostQueue := rfl
@[simp] theorem raiseCmdError_hostReads (e : CmdError) : (raiseCmdError e s).hostReads = s.hostReads := rfl
@[simp] theorem raiseCmdError_pollsLeft (e : CmdError) : (raiseCmdError e s).pollsLeft = s.pollsLeft := rfl
@[simp] theorem raiseCmdError_cmdCount (e : CmdError) : (raiseCmdError e s).cmdCount = s.cmdCount := rfl

@[simp] theorem takeCommand_pending : (takeCommand s).pending = none := rfl
@[simp] theorem takeCommand_hdrValid : (takeCommand s).hdrValid = s.hdrValid := rfl
@[simp] theorem takeCommand_pktValid : (takeCommand s).pktValid = s.pktValid := rfl
@[simp] theorem takeCommand_fnTrunc : (takeCommand s).fnTrunc = s.fnTrunc := rfl
@[simp] theorem takeCommand_errSticky : (takeCommand s).errSticky = s.errSticky := rfl
@[simp] theorem takeCommand_errCode : (takeCommand s).errCode = s.errCode := rfl
@[simp] theorem takeCommand_dataLen : (takeCommand s).dataLen = s.dataLen := rfl
@[simp] theorem takeCommand_crcState : (takeCommand s).crcState = s.crcState := rfl
@[simp] theorem takeCommand_fnLen : (takeCommand s).fnLen = s.fnLen := rfl
@[simp] theorem takeCommand_fnCrc : (takeCommand s).fnCrc = s.fnCrc := rfl
@[simp] theorem takeCommand_plan : (takeCommand s).plan = s.plan := rfl
@[simp] theorem takeCommand_frame : (takeCommand s).frame = s.frame := rfl
@[simp] theorem takeCommand_rawOff : (takeCommand s).rawOff = s.rawOff := rfl
@[simp] theorem takeCommand_rawLen : (takeCommand s).rawLen = s.rawLen := rfl
@[simp] theorem takeCommand_pktInfo : (takeCommand s).pktInfo = s.pktInfo := rfl
@[simp] theorem takeCommand_fnbuf : (takeCommand s).fnbuf = s.fnbuf := rfl
@[simp] theorem takeCommand_hdrbuf : (takeCommand s).hdrbuf = s.hdrbuf := rfl
@[simp] theorem takeCommand_pktbuf : (takeCommand s).pktbuf = s.pktbuf := rfl
@[simp] theorem takeCommand_src : (takeCommand s).src = s.src := rfl
@[simp] theorem takeCommand_hostQueue : (takeCommand s).hostQueue = s.hostQueue := rfl
@[simp] theorem takeCommand_hostReads : (takeCommand s).hostReads = s.hostReads := rfl
@[simp] theorem takeCommand_pollsLeft : (takeCommand s).pollsLeft = 0 := rfl
@[simp] theorem takeCommand_cmdCount : (takeCommand s).cmdCount = s.cmdCount := rfl

@[simp] theorem latchCommand_pending (w : BitVec 32) : (latchCommand w s).pending = some w := rfl
@[simp] theorem latchCommand_hdrValid (w : BitVec 32) : (latchCommand w s).hdrValid = s.hdrValid := rfl
@[simp] theorem latchCommand_pktValid (w : BitVec 32) : (latchCommand w s).pktValid = s.pktValid := rfl
@[simp] theorem latchCommand_fnTrunc (w : BitVec 32) : (latchCommand w s).fnTrunc = s.fnTrunc := rfl
@[simp] theorem latchCommand_errSticky (w : BitVec 32) : (latchCommand w s).errSticky = s.errSticky := rfl
@[simp] theorem latchCommand_errCode (w : BitVec 32) : (latchCommand w s).errCode = s.errCode := rfl
@[simp] theorem latchCommand_dataLen (w : BitVec 32) : (latchCommand w s).dataLen = s.dataLen := rfl
@[simp] theorem latchCommand_crcState (w : BitVec 32) : (latchCommand w s).crcState = s.crcState := rfl
@[simp] theorem latchCommand_fnLen (w : BitVec 32) : (latchCommand w s).fnLen = s.fnLen := rfl
@[simp] theorem latchCommand_fnCrc (w : BitVec 32) : (latchCommand w s).fnCrc = s.fnCrc := rfl
@[simp] theorem latchCommand_plan (w : BitVec 32) : (latchCommand w s).plan = s.plan := rfl
@[simp] theorem latchCommand_frame (w : BitVec 32) : (latchCommand w s).frame = s.frame := rfl
@[simp] theorem latchCommand_rawOff (w : BitVec 32) : (latchCommand w s).rawOff = s.rawOff := rfl
@[simp] theorem latchCommand_rawLen (w : BitVec 32) : (latchCommand w s).rawLen = s.rawLen := rfl
@[simp] theorem latchCommand_pktInfo (w : BitVec 32) : (latchCommand w s).pktInfo = s.pktInfo := rfl
@[simp] theorem latchCommand_fnbuf (w : BitVec 32) : (latchCommand w s).fnbuf = s.fnbuf := rfl
@[simp] theorem latchCommand_hdrbuf (w : BitVec 32) : (latchCommand w s).hdrbuf = s.hdrbuf := rfl
@[simp] theorem latchCommand_pktbuf (w : BitVec 32) : (latchCommand w s).pktbuf = s.pktbuf := rfl
@[simp] theorem latchCommand_src (w : BitVec 32) : (latchCommand w s).src = s.src := rfl
@[simp] theorem latchCommand_hostQueue (w : BitVec 32) : (latchCommand w s).hostQueue = s.hostQueue := rfl
@[simp] theorem latchCommand_hostReads (w : BitVec 32) : (latchCommand w s).hostReads = s.hostReads := rfl
@[simp] theorem latchCommand_pollsLeft (w : BitVec 32) : (latchCommand w s).pollsLeft = Config.cmdLatency s.cmdCount := rfl
@[simp] theorem latchCommand_cmdCount (w : BitVec 32) : (latchCommand w s).cmdCount = s.cmdCount + 1 := rfl

@[simp] theorem writeStatus_pending (v : BitVec 32) : (writeStatus v s).pending = s.pending := rfl
@[simp] theorem writeStatus_hdrValid (v : BitVec 32) : (writeStatus v s).hdrValid = s.hdrValid := rfl
@[simp] theorem writeStatus_pktValid (v : BitVec 32) : (writeStatus v s).pktValid = s.pktValid := rfl
@[simp] theorem writeStatus_fnTrunc (v : BitVec 32) : (writeStatus v s).fnTrunc = s.fnTrunc := rfl
@[simp] theorem writeStatus_errSticky (v : BitVec 32) : (writeStatus v s).errSticky = (s.errSticky && !v.getLsbD 7) := rfl
@[simp] theorem writeStatus_errCode (v : BitVec 32) : (writeStatus v s).errCode = s.errCode := rfl
@[simp] theorem writeStatus_dataLen (v : BitVec 32) : (writeStatus v s).dataLen = s.dataLen := rfl
@[simp] theorem writeStatus_crcState (v : BitVec 32) : (writeStatus v s).crcState = s.crcState := rfl
@[simp] theorem writeStatus_fnLen (v : BitVec 32) : (writeStatus v s).fnLen = s.fnLen := rfl
@[simp] theorem writeStatus_fnCrc (v : BitVec 32) : (writeStatus v s).fnCrc = s.fnCrc := rfl
@[simp] theorem writeStatus_plan (v : BitVec 32) : (writeStatus v s).plan = s.plan := rfl
@[simp] theorem writeStatus_frame (v : BitVec 32) : (writeStatus v s).frame = s.frame := rfl
@[simp] theorem writeStatus_rawOff (v : BitVec 32) : (writeStatus v s).rawOff = s.rawOff := rfl
@[simp] theorem writeStatus_rawLen (v : BitVec 32) : (writeStatus v s).rawLen = s.rawLen := rfl
@[simp] theorem writeStatus_pktInfo (v : BitVec 32) : (writeStatus v s).pktInfo = s.pktInfo := rfl
@[simp] theorem writeStatus_fnbuf (v : BitVec 32) : (writeStatus v s).fnbuf = s.fnbuf := rfl
@[simp] theorem writeStatus_hdrbuf (v : BitVec 32) : (writeStatus v s).hdrbuf = s.hdrbuf := rfl
@[simp] theorem writeStatus_pktbuf (v : BitVec 32) : (writeStatus v s).pktbuf = s.pktbuf := rfl
@[simp] theorem writeStatus_src (v : BitVec 32) : (writeStatus v s).src = s.src := rfl
@[simp] theorem writeStatus_hostQueue (v : BitVec 32) : (writeStatus v s).hostQueue = s.hostQueue := rfl
@[simp] theorem writeStatus_hostReads (v : BitVec 32) : (writeStatus v s).hostReads = s.hostReads := rfl
@[simp] theorem writeStatus_pollsLeft (v : BitVec 32) : (writeStatus v s).pollsLeft = s.pollsLeft := rfl
@[simp] theorem writeStatus_cmdCount (v : BitVec 32) : (writeStatus v s).cmdCount = s.cmdCount := rfl

@[simp] theorem setDataLen_pending (v : BitVec 32) : (setDataLen v s).pending = s.pending := rfl
@[simp] theorem setDataLen_hdrValid (v : BitVec 32) : (setDataLen v s).hdrValid = false := rfl
@[simp] theorem setDataLen_pktValid (v : BitVec 32) : (setDataLen v s).pktValid = s.pktValid := rfl
@[simp] theorem setDataLen_fnTrunc (v : BitVec 32) : (setDataLen v s).fnTrunc = s.fnTrunc := rfl
@[simp] theorem setDataLen_errSticky (v : BitVec 32) : (setDataLen v s).errSticky = s.errSticky := rfl
@[simp] theorem setDataLen_errCode (v : BitVec 32) : (setDataLen v s).errCode = s.errCode := rfl
@[simp] theorem setDataLen_dataLen (v : BitVec 32) : (setDataLen v s).dataLen = v := rfl
@[simp] theorem setDataLen_crcState (v : BitVec 32) : (setDataLen v s).crcState = s.crcState := rfl
@[simp] theorem setDataLen_fnLen (v : BitVec 32) : (setDataLen v s).fnLen = s.fnLen := rfl
@[simp] theorem setDataLen_fnCrc (v : BitVec 32) : (setDataLen v s).fnCrc = s.fnCrc := rfl
@[simp] theorem setDataLen_plan (v : BitVec 32) : (setDataLen v s).plan = PlanRegs.none := rfl
@[simp] theorem setDataLen_frame (v : BitVec 32) : (setDataLen v s).frame = s.frame := rfl
@[simp] theorem setDataLen_rawOff (v : BitVec 32) : (setDataLen v s).rawOff = s.rawOff := rfl
@[simp] theorem setDataLen_rawLen (v : BitVec 32) : (setDataLen v s).rawLen = s.rawLen := rfl
@[simp] theorem setDataLen_pktInfo (v : BitVec 32) : (setDataLen v s).pktInfo = s.pktInfo := rfl
@[simp] theorem setDataLen_fnbuf (v : BitVec 32) : (setDataLen v s).fnbuf = s.fnbuf := rfl
@[simp] theorem setDataLen_hdrbuf (v : BitVec 32) : (setDataLen v s).hdrbuf = s.hdrbuf := rfl
@[simp] theorem setDataLen_pktbuf (v : BitVec 32) : (setDataLen v s).pktbuf = s.pktbuf := rfl
@[simp] theorem setDataLen_src (v : BitVec 32) : (setDataLen v s).src = s.src := rfl
@[simp] theorem setDataLen_hostQueue (v : BitVec 32) : (setDataLen v s).hostQueue = s.hostQueue := rfl
@[simp] theorem setDataLen_hostReads (v : BitVec 32) : (setDataLen v s).hostReads = s.hostReads := rfl
@[simp] theorem setDataLen_pollsLeft (v : BitVec 32) : (setDataLen v s).pollsLeft = s.pollsLeft := rfl
@[simp] theorem setDataLen_cmdCount (v : BitVec 32) : (setDataLen v s).cmdCount = s.cmdCount := rfl

@[simp] theorem storePacket_pending (p : Vector (BitVec 8) 221) (info : PktInfo) : (storePacket p info s).pending = s.pending := rfl
@[simp] theorem storePacket_hdrValid (p : Vector (BitVec 8) 221) (info : PktInfo) : (storePacket p info s).hdrValid = s.hdrValid := rfl
@[simp] theorem storePacket_pktValid (p : Vector (BitVec 8) 221) (info : PktInfo) : (storePacket p info s).pktValid = true := rfl
@[simp] theorem storePacket_fnTrunc (p : Vector (BitVec 8) 221) (info : PktInfo) : (storePacket p info s).fnTrunc = s.fnTrunc := rfl
@[simp] theorem storePacket_errSticky (p : Vector (BitVec 8) 221) (info : PktInfo) : (storePacket p info s).errSticky = s.errSticky := rfl
@[simp] theorem storePacket_errCode (p : Vector (BitVec 8) 221) (info : PktInfo) : (storePacket p info s).errCode = s.errCode := rfl
@[simp] theorem storePacket_dataLen (p : Vector (BitVec 8) 221) (info : PktInfo) : (storePacket p info s).dataLen = s.dataLen := rfl
@[simp] theorem storePacket_crcState (p : Vector (BitVec 8) 221) (info : PktInfo) : (storePacket p info s).crcState = s.crcState := rfl
@[simp] theorem storePacket_fnLen (p : Vector (BitVec 8) 221) (info : PktInfo) : (storePacket p info s).fnLen = s.fnLen := rfl
@[simp] theorem storePacket_fnCrc (p : Vector (BitVec 8) 221) (info : PktInfo) : (storePacket p info s).fnCrc = s.fnCrc := rfl
@[simp] theorem storePacket_plan (p : Vector (BitVec 8) 221) (info : PktInfo) : (storePacket p info s).plan = s.plan := rfl
@[simp] theorem storePacket_frame (p : Vector (BitVec 8) 221) (info : PktInfo) : (storePacket p info s).frame = s.frame := rfl
@[simp] theorem storePacket_rawOff (p : Vector (BitVec 8) 221) (info : PktInfo) : (storePacket p info s).rawOff = s.rawOff := rfl
@[simp] theorem storePacket_rawLen (p : Vector (BitVec 8) 221) (info : PktInfo) : (storePacket p info s).rawLen = s.rawLen := rfl
@[simp] theorem storePacket_pktInfo (p : Vector (BitVec 8) 221) (info : PktInfo) : (storePacket p info s).pktInfo = info := rfl
@[simp] theorem storePacket_fnbuf (p : Vector (BitVec 8) 221) (info : PktInfo) : (storePacket p info s).fnbuf = s.fnbuf := rfl
@[simp] theorem storePacket_hdrbuf (p : Vector (BitVec 8) 221) (info : PktInfo) : (storePacket p info s).hdrbuf = s.hdrbuf := rfl
@[simp] theorem storePacket_pktbuf (p : Vector (BitVec 8) 221) (info : PktInfo) : (storePacket p info s).pktbuf = p := rfl
@[simp] theorem storePacket_src (p : Vector (BitVec 8) 221) (info : PktInfo) : (storePacket p info s).src = s.src := rfl
@[simp] theorem storePacket_hostQueue (p : Vector (BitVec 8) 221) (info : PktInfo) : (storePacket p info s).hostQueue = s.hostQueue := rfl
@[simp] theorem storePacket_hostReads (p : Vector (BitVec 8) 221) (info : PktInfo) : (storePacket p info s).hostReads = s.hostReads := rfl
@[simp] theorem storePacket_pollsLeft (p : Vector (BitVec 8) 221) (info : PktInfo) : (storePacket p info s).pollsLeft = s.pollsLeft := rfl
@[simp] theorem storePacket_cmdCount (p : Vector (BitVec 8) 221) (info : PktInfo) : (storePacket p info s).cmdCount = s.cmdCount := rfl

@[simp] theorem recordRead_pending (v : HostValue) : (recordRead v s).pending = s.pending := rfl
@[simp] theorem recordRead_hdrValid (v : HostValue) : (recordRead v s).hdrValid = s.hdrValid := rfl
@[simp] theorem recordRead_pktValid (v : HostValue) : (recordRead v s).pktValid = s.pktValid := rfl
@[simp] theorem recordRead_fnTrunc (v : HostValue) : (recordRead v s).fnTrunc = s.fnTrunc := rfl
@[simp] theorem recordRead_errSticky (v : HostValue) : (recordRead v s).errSticky = s.errSticky := rfl
@[simp] theorem recordRead_errCode (v : HostValue) : (recordRead v s).errCode = s.errCode := rfl
@[simp] theorem recordRead_dataLen (v : HostValue) : (recordRead v s).dataLen = s.dataLen := rfl
@[simp] theorem recordRead_crcState (v : HostValue) : (recordRead v s).crcState = s.crcState := rfl
@[simp] theorem recordRead_fnLen (v : HostValue) : (recordRead v s).fnLen = s.fnLen := rfl
@[simp] theorem recordRead_fnCrc (v : HostValue) : (recordRead v s).fnCrc = s.fnCrc := rfl
@[simp] theorem recordRead_plan (v : HostValue) : (recordRead v s).plan = s.plan := rfl
@[simp] theorem recordRead_frame (v : HostValue) : (recordRead v s).frame = s.frame := rfl
@[simp] theorem recordRead_rawOff (v : HostValue) : (recordRead v s).rawOff = s.rawOff := rfl
@[simp] theorem recordRead_rawLen (v : HostValue) : (recordRead v s).rawLen = s.rawLen := rfl
@[simp] theorem recordRead_pktInfo (v : HostValue) : (recordRead v s).pktInfo = s.pktInfo := rfl
@[simp] theorem recordRead_fnbuf (v : HostValue) : (recordRead v s).fnbuf = s.fnbuf := rfl
@[simp] theorem recordRead_hdrbuf (v : HostValue) : (recordRead v s).hdrbuf = s.hdrbuf := rfl
@[simp] theorem recordRead_pktbuf (v : HostValue) : (recordRead v s).pktbuf = s.pktbuf := rfl
@[simp] theorem recordRead_src (v : HostValue) : (recordRead v s).src = s.src := rfl
@[simp] theorem recordRead_hostQueue (v : HostValue) : (recordRead v s).hostQueue = s.hostQueue := rfl
@[simp] theorem recordRead_hostReads (v : HostValue) : (recordRead v s).hostReads = s.hostReads ++ [v] := rfl
@[simp] theorem recordRead_pollsLeft (v : HostValue) : (recordRead v s).pollsLeft = s.pollsLeft - 1 := rfl
@[simp] theorem recordRead_cmdCount (v : HostValue) : (recordRead v s).cmdCount = s.cmdCount := rfl

@[simp] theorem resetExceptSrc_pending : (resetExceptSrc s).pending = State.reset.pending := rfl
@[simp] theorem resetExceptSrc_hdrValid : (resetExceptSrc s).hdrValid = State.reset.hdrValid := rfl
@[simp] theorem resetExceptSrc_pktValid : (resetExceptSrc s).pktValid = State.reset.pktValid := rfl
@[simp] theorem resetExceptSrc_fnTrunc : (resetExceptSrc s).fnTrunc = State.reset.fnTrunc := rfl
@[simp] theorem resetExceptSrc_errSticky : (resetExceptSrc s).errSticky = State.reset.errSticky := rfl
@[simp] theorem resetExceptSrc_errCode : (resetExceptSrc s).errCode = State.reset.errCode := rfl
@[simp] theorem resetExceptSrc_dataLen : (resetExceptSrc s).dataLen = State.reset.dataLen := rfl
@[simp] theorem resetExceptSrc_crcState : (resetExceptSrc s).crcState = State.reset.crcState := rfl
@[simp] theorem resetExceptSrc_fnLen : (resetExceptSrc s).fnLen = State.reset.fnLen := rfl
@[simp] theorem resetExceptSrc_fnCrc : (resetExceptSrc s).fnCrc = State.reset.fnCrc := rfl
@[simp] theorem resetExceptSrc_plan : (resetExceptSrc s).plan = State.reset.plan := rfl
@[simp] theorem resetExceptSrc_frame : (resetExceptSrc s).frame = State.reset.frame := rfl
@[simp] theorem resetExceptSrc_rawOff : (resetExceptSrc s).rawOff = State.reset.rawOff := rfl
@[simp] theorem resetExceptSrc_rawLen : (resetExceptSrc s).rawLen = State.reset.rawLen := rfl
@[simp] theorem resetExceptSrc_pktInfo : (resetExceptSrc s).pktInfo = State.reset.pktInfo := rfl
@[simp] theorem resetExceptSrc_fnbuf : (resetExceptSrc s).fnbuf = State.reset.fnbuf := rfl
@[simp] theorem resetExceptSrc_hdrbuf : (resetExceptSrc s).hdrbuf = State.reset.hdrbuf := rfl
@[simp] theorem resetExceptSrc_pktbuf : (resetExceptSrc s).pktbuf = State.reset.pktbuf := rfl
@[simp] theorem resetExceptSrc_src : (resetExceptSrc s).src = s.src := rfl
@[simp] theorem resetExceptSrc_hostQueue : (resetExceptSrc s).hostQueue = s.hostQueue := rfl
@[simp] theorem resetExceptSrc_hostReads : (resetExceptSrc s).hostReads = s.hostReads := rfl
@[simp] theorem resetExceptSrc_pollsLeft : (resetExceptSrc s).pollsLeft = State.reset.pollsLeft := rfl
@[simp] theorem resetExceptSrc_cmdCount : (resetExceptSrc s).cmdCount = s.cmdCount := rfl

@[simp] theorem powerOnReset_pending : (powerOnReset s).pending = State.reset.pending := rfl
@[simp] theorem powerOnReset_hdrValid : (powerOnReset s).hdrValid = State.reset.hdrValid := rfl
@[simp] theorem powerOnReset_pktValid : (powerOnReset s).pktValid = State.reset.pktValid := rfl
@[simp] theorem powerOnReset_fnTrunc : (powerOnReset s).fnTrunc = State.reset.fnTrunc := rfl
@[simp] theorem powerOnReset_errSticky : (powerOnReset s).errSticky = State.reset.errSticky := rfl
@[simp] theorem powerOnReset_errCode : (powerOnReset s).errCode = State.reset.errCode := rfl
@[simp] theorem powerOnReset_dataLen : (powerOnReset s).dataLen = State.reset.dataLen := rfl
@[simp] theorem powerOnReset_crcState : (powerOnReset s).crcState = State.reset.crcState := rfl
@[simp] theorem powerOnReset_fnLen : (powerOnReset s).fnLen = State.reset.fnLen := rfl
@[simp] theorem powerOnReset_fnCrc : (powerOnReset s).fnCrc = State.reset.fnCrc := rfl
@[simp] theorem powerOnReset_plan : (powerOnReset s).plan = State.reset.plan := rfl
@[simp] theorem powerOnReset_frame : (powerOnReset s).frame = State.reset.frame := rfl
@[simp] theorem powerOnReset_rawOff : (powerOnReset s).rawOff = State.reset.rawOff := rfl
@[simp] theorem powerOnReset_rawLen : (powerOnReset s).rawLen = State.reset.rawLen := rfl
@[simp] theorem powerOnReset_pktInfo : (powerOnReset s).pktInfo = State.reset.pktInfo := rfl
@[simp] theorem powerOnReset_fnbuf : (powerOnReset s).fnbuf = State.reset.fnbuf := rfl
@[simp] theorem powerOnReset_hdrbuf : (powerOnReset s).hdrbuf = State.reset.hdrbuf := rfl
@[simp] theorem powerOnReset_pktbuf : (powerOnReset s).pktbuf = State.reset.pktbuf := rfl
@[simp] theorem powerOnReset_src : (powerOnReset s).src = [] := rfl
@[simp] theorem powerOnReset_hostQueue : (powerOnReset s).hostQueue = s.hostQueue := rfl
@[simp] theorem powerOnReset_hostReads : (powerOnReset s).hostReads = s.hostReads := rfl
@[simp] theorem powerOnReset_pollsLeft : (powerOnReset s).pollsLeft = State.reset.pollsLeft := rfl
@[simp] theorem powerOnReset_cmdCount : (powerOnReset s).cmdCount = s.cmdCount := rfl

end updates

section values
variable (s : State)

/-- The file length is read from DATA_LEN alone. -/
theorem fileLen_eq : s.fileLen = s.dataLen.toNat := rfl
/-- BUSY is the latch being non-empty (10_state.md R42). -/
theorem busy_eq : s.busy = s.pending.isSome := rfl
@[simp] theorem succeed_fileLen : (succeed s).fileLen = s.fileLen := rfl
@[simp] theorem raiseCmdError_fileLen (e : CmdError) : (raiseCmdError e s).fileLen = s.fileLen := rfl
@[simp] theorem takeCommand_fileLen : (takeCommand s).fileLen = s.fileLen := rfl
@[simp] theorem takeCommand_busy : (takeCommand s).busy = false := rfl
@[simp] theorem latchCommand_busy (w : BitVec 32) : (latchCommand w s).busy = true := rfl
@[simp] theorem setDataLen_fileLen (v : BitVec 32) : (setDataLen v s).fileLen = v.toNat := rfl
@[simp] theorem planRegs_none_mode : PlanRegs.none.mode = 0 := rfl
@[simp] theorem planRegs_none_frameCount : PlanRegs.none.frameCount = 0 := rfl
@[simp] theorem planRegs_none_passCount : PlanRegs.none.passCount = 0 := rfl
@[simp] theorem planRegs_none_lastDataLen : PlanRegs.none.lastDataLen = 0 := rfl
@[simp] theorem reset_plan : State.reset.plan = PlanRegs.none := rfl
@[simp] theorem reset_src : State.reset.src = [] := rfl
end values

end Sys2Proof.Machine
end

