-- ==== Sys2Proof/Laws/Host.lean ====
section
/-! SUPPORT. What the host port can do: when an access is refused, what a read returns, what a write leaves, and what one step of
the host agent can answer. -/

namespace Sys2Proof.Machine

variable {s t : State} {a : Addr} {size : Nat} {v : BitVec 32}

/-- An access is admitted exactly when the busy, size, alignment and REG rules all hold (60_exceptions.md R106). -/
theorem hostFault_eq_none_iff {isRead : Bool} :
    hostFault isRead a size s = none ↔
      (s.busy = true → isStatusRead isRead a size = true) ∧ (size = 1 ∨ size = 4) ∧
      (size = 4 → a.toNat % 4 = 0) ∧ (size = 1 → regionOf a ≠ .reg) := by
  unfold hostFault
  split
  · rename_i h
    simp only [Bool.and_eq_true, Bool.not_eq_true'] at h
    simp [h.1, h.2]
  · rename_i h
    have hb : s.busy = true → isStatusRead isRead a size = true := by
      intro hb; simpa [hb] using h
    split
    · simp; omega
    · split
      · simp; intros; omega
      · split
        · rename_i h4; simp [h4.1, h4.2]
        · rename_i h2 h3 h4
          simp only [true_iff]
          exact ⟨hb, by omega, fun hs => by by_contra hc; exact h3 ⟨hs, hc⟩, fun hs hr => h4 ⟨hs, hr⟩⟩

/-- What an admitted read returns (20_memory.md R46 to R55). -/
theorem hostRead_ok {x : HostValue} (h : hostRead a size s = .ok x) :
    hostFault true a size s = none ∧
    ((regionOf a = .reg ∧ x = .word (readRegAt a s)) ∨
     (regionOf a ≠ .reg ∧ size = 1 ∧ ∃ b, windowByte a s = some b ∧ x = .byte b) ∨
     (regionOf a ≠ .reg ∧ size = 4 ∧ ∃ w, windowWord a s = some w ∧ x = .word w)) := by
  unfold hostRead at h
  split at h
  · cases h
  · rename_i hf
    refine ⟨hf, ?_⟩
    split at h
    · exact .inl ⟨‹_›, by injection h with h; exact h.symm⟩
    · split at h
      · split at h
        · exact .inr (.inl ⟨‹_›, ‹_›, _, ‹_›, by injection h with h; exact h.symm⟩)
        · cases h
      · have hs := (hostFault_eq_none_iff.1 hf).2.1
        split at h
        · exact .inr (.inr ⟨‹_›, by omega, _, ‹_›, by injection h with h; exact h.symm⟩)
        · cases h

/-- What an admitted write leaves (20_memory.md R46 to R56): nothing changed, one register written, or SRC written. -/
theorem hostWrite_ok (h : hostWrite a size v s = .ok t) :
    hostFault false a size s = none ∧
    (t = s ∨
     (regionOf a = .reg ∧ ∃ r, Reg.ofOffset a = some r ∧ t = writeReg v s r) ∨
     (regionOf a = .src ∧ t = { s with src := writeSrc (srcOffset a) size v s.src })) := by
  unfold hostWrite at h
  split at h
  · cases h
  · refine ⟨‹_›, ?_⟩
    split at h
    · split at h
      · exact .inr (.inl ⟨‹_›, _, ‹_›, by injection h with h; exact h.symm⟩)
      · exact .inl (by injection h with h; exact h.symm)
    · exact .inl (by injection h with h; exact h.symm)
    · exact .inl (by injection h with h; exact h.symm)
    · exact .inl (by injection h with h; exact h.symm)
    · exact .inr (.inr ⟨‹_›, by injection h with h; exact h.symm⟩)

/-- What one step of the host agent can answer (00_scope.md R14). -/
theorem hostStep_next (h : hostStep s = .next t) :
    (s.hostQueue = [] ∧ t = s) ∨
    (∃ a size rest x, s.hostQueue = .read a size :: rest ∧ hostRead a size s = .ok x ∧
      t = recordRead x { s with hostQueue := rest }) ∨
    (∃ a size v rest, s.hostQueue = .write a size v :: rest ∧
      hostWrite a size v { s with hostQueue := rest } = .ok t) ∨
    (∃ rest, s.hostQueue = .wait :: rest ∧
      ((s.busy = true ∧ t = s) ∨ (s.busy = false ∧ t = { s with hostQueue := rest }))) ∨
    (∃ rest, s.hostQueue = .powerOn :: rest ∧ t = powerOnReset { s with hostQueue := rest }) := by
  unfold hostStep at h
  split at h
  · exact .inl ⟨‹_›, by injection h with h; exact h.symm⟩
  · split at h
    · exact .inr (.inl ⟨_, _, _, _, ‹_›, ‹_›, by injection h with h; exact h.symm⟩)
    · cases h
  · split at h
    · rename_i hw
      injection h with h
      subst h
      exact .inr (.inr (.inl ⟨_, _, _, _, ‹_›, hw⟩))
    · cases h
  · rename_i rest hq
    split at h
    · exact .inr (.inr (.inr (.inl ⟨rest, hq, .inl ⟨‹_›, by injection h with h; exact h.symm⟩⟩)))
    · exact .inr (.inr (.inr (.inl ⟨rest, hq, .inr ⟨Bool.eq_false_of_not_eq_true ‹¬ s.busy = true›, by injection h with h; exact h.symm⟩⟩)))
  · exact .inr (.inr (.inr (.inr ⟨_, ‹_›, by injection h with h; exact h.symm⟩)))

end Sys2Proof.Machine
end

