-- ==== Sys2Proof/Laws/PerInstr.lean ====
section
/-! SUPPORT. Facts about every command as syntax, one lemma per constructor of `Instr`. -/

namespace Sys2Proof.Laws.Encodable

/-- The command is well formed and its encoding sets no reserved ARG bit (30_encoding.md R66, R67). -/
def Statement (i : Instr) : Prop := i.wellFormed = true ∧ i.arg &&& ~~~i.opcode.argMask = 0

theorem zeros_and_not_low {w : Nat} (x : BitVec w) (m : BitVec 24)
    (hm : ∀ j, j < w → m.getLsbD j = true) : x.setWidth 24 &&& ~~~m = 0 := by
  apply BitVec.eq_of_getLsbD_eq
  intro j hj
  by_cases hw : j < w
  · simp [hm j hw]
  · simp [BitVec.getLsbD_of_ge x j (by omega)]

theorem nop : Statement .nop := ⟨rfl, by decide⟩
theorem crcInit : Statement .crcInit := ⟨rfl, by decide⟩
theorem crcByte (byte : BitVec 8) : Statement (.crcByte byte) :=
  ⟨decide_eq_true byte.isLt, zeros_and_not_low byte Opcode.crcByte.argMask (by decide)⟩
theorem fnClear : Statement .fnClear := ⟨rfl, by decide⟩
theorem fnPush (byte : BitVec 8) : Statement (.fnPush byte) :=
  ⟨decide_eq_true byte.isLt, zeros_and_not_low byte Opcode.fnPush.argMask (by decide)⟩
theorem hdrBuild : Statement .hdrBuild := ⟨rfl, by decide⟩
theorem plan : Statement .plan := ⟨rfl, by decide⟩
theorem frameInfo (index : BitVec 16) : Statement (.frameInfo index) :=
  ⟨decide_eq_true index.isLt, zeros_and_not_low index Opcode.frameInfo.argMask (by decide)⟩
theorem pktBuild (index : BitVec 16) : Statement (.pktBuild index) :=
  ⟨decide_eq_true index.isLt, zeros_and_not_low index Opcode.pktBuild.argMask (by decide)⟩
theorem pktRaw (role : BitVec 2) : Statement (.pktRaw role) :=
  ⟨decide_eq_true role.isLt, zeros_and_not_low role Opcode.pktRaw.argMask (by decide)⟩
theorem softReset : Statement .softReset := ⟨rfl, by decide⟩

end Sys2Proof.Laws.Encodable

namespace Sys2Proof

/-- Every command is well formed, by the widths of its operands. -/
theorem Instr.wellFormed_all (i : Instr) : i.wellFormed = true := by
  cases i
  case nop => exact Laws.Encodable.nop.1
  case crcInit => exact Laws.Encodable.crcInit.1
  case crcByte byte => exact (Laws.Encodable.crcByte byte).1
  case fnClear => exact Laws.Encodable.fnClear.1
  case fnPush byte => exact (Laws.Encodable.fnPush byte).1
  case hdrBuild => exact Laws.Encodable.hdrBuild.1
  case plan => exact Laws.Encodable.plan.1
  case frameInfo index => exact (Laws.Encodable.frameInfo index).1
  case pktBuild index => exact (Laws.Encodable.pktBuild index).1
  case pktRaw role => exact (Laws.Encodable.pktRaw role).1
  case softReset => exact Laws.Encodable.softReset.1

end Sys2Proof
end

