-- ==== Sys2Proof/Laws/Step.lean ====
section
/-! SUPPORT. What one step of the machine can do, said once. -/

namespace Sys2Proof.Machine

variable {s t : State}

/-- The engine step by the decoder's answer (30_encoding.md R63). -/
theorem engineStep_of_ok {w : BitVec 32} {i : Instr} (h : decode w = .ok i) (s : State) :
    engineStep w s = exec i (takeCommand s) := by simp [engineStep, h]

theorem engineStep_of_error {w : BitVec 32} {e : DecodeError} (h : decode w = .error e) (s : State) :
    engineStep w s = .next (raiseCmdError (CmdError.ofDecode e) (takeCommand s)) := by simp [engineStep, h]

/-- A step that goes on is the engine executing a decoded command, the engine reporting a decode error, or one host action
(00_scope.md R5). -/
theorem step_next (h : step s = .next t) :
    (∃ w i, s.pending = some w ∧ engineTurn s = true ∧ decode w = .ok i ∧ exec i (takeCommand s) = .next t) ∨
    (∃ w e, s.pending = some w ∧ engineTurn s = true ∧ decode w = .error e ∧
      t = raiseCmdError (CmdError.ofDecode e) (takeCommand s)) ∨
    ((s.pending = none ∨ engineTurn s = false) ∧ hostStep s = .next t) := by
  unfold step machineStep at h
  split at h
  · rename_i w hp
    split at h
    · rename_i ht
      cases hd : decode w with
      | ok i => rw [engineStep_of_ok hd] at h; exact .inl ⟨w, i, hp, ht, hd, h⟩
      | error e =>
        rw [engineStep_of_error hd] at h
        exact .inr (.inl ⟨w, e, hp, ht, hd, by injection h with h; exact h.symm⟩)
    · exact .inr (.inr ⟨.inr (Bool.eq_false_of_not_eq_true ‹¬ engineTurn s = true›), h⟩)
  · exact .inr (.inr ⟨.inl ‹_›, h⟩)

/-- With a command latched and the engine's turn come, the step is the engine's. -/
theorem step_eq_engineStep {w : BitVec 32} (hp : s.pending = some w) (ht : engineTurn s = true) :
    step s = engineStep w s := by simp [step, machineStep, hp, ht]

/-- With no command latched, the step is the host's (10_state.md R42). -/
theorem step_eq_hostStep (hp : s.pending = none) : step s = hostStep s := by simp [step, machineStep, hp]

/-- While the latency of a latched command lasts, the host moves (70_reset_and_hazards.md R122). -/
theorem step_eq_hostStep_of_wait (ht : engineTurn s = false) : step s = hostStep s := by
  unfold step machineStep
  split
  · simp [ht]
  · rfl

end Sys2Proof.Machine
end

