-- ==== Sys2Proof/Machine/Driver.lean ====
section
/-! DEFINITION. Driver: the host-program syntax and pseudo-instructions of 30_encoding.md R71 and R72 and the host's transfer sequence
of 70_reset_and_hazards.md R113, as lists of host actions. No definition of the block uses them. -/

namespace Sys2Proof.Machine

/-- `R32 <register>` (30_encoding.md R71). -/
def readRegister (r : Reg) : HostAction := .read r.offset 4

/-- `W32 <register>, v` (30_encoding.md R71). -/
def writeRegister (r : Reg) (v : BitVec 32) : HostAction := .write r.offset 4 v

/-- `MNEMONIC [operand]`: a CMD write of the encoding, then WAIT (30_encoding.md R71). -/
def command (i : Instr) : List HostAction := [writeRegister .cmd (encode i), .wait]

/-- `CRC16 "s"`, with the read of CRC_OUT that gives its result (30_encoding.md R72). -/
def crc16Program (bs : List (BitVec 8)) : List HostAction :=
  command .crcInit ++ bs.flatMap (fun b => command (.crcByte b)) ++ [readRegister .crcOut]

/-- `FN_SET "s"` (30_encoding.md R72). -/
def fnSet (bs : List (BitVec 8)) : List HostAction :=
  command .fnClear ++ bs.flatMap (fun b => command (.fnPush b))

/-- `W8 0x200000 + offset, b` (30_encoding.md R72). An offset of 2^21 or more has no address in SRC and the spec gives it no meaning:
the sum keeps its low 22 bits, as every block address has 22 (log 16, DESIGN CHOICE). -/
def srcStore (offset : Nat) (b : BitVec 8) : HostAction :=
  .write (BitVec.ofNat 22 (0x200000 + offset)) 1 (b.setWidth 32)

/-- `SRC_LOAD off, "s"` (30_encoding.md R72). -/
def srcLoad : Nat → List (BitVec 8) → List HostAction
  | _, [] => []
  | offset, b :: bs => srcStore offset b :: srcLoad (offset + 1) bs

/-- `SRC_FILL off, n, f` (30_encoding.md R72). -/
def srcFill (offset n : Nat) (f : Nat → BitVec 8) : List HostAction :=
  (List.range n).map (fun k => srcStore (offset + k) (f k))

/-- `PKT_READ`: 56 words from 0x000100 (30_encoding.md R72). -/
def pktRead : List HostAction :=
  (List.range 56).map (fun k => .read (BitVec.ofNat 22 (0x100 + 4 * k)) 4)

/-- The bytes a host pushes for a filename: the ASCII code of an ASCII character, PLACEHOLDER for any other
(41_header.md R77). -/
def filenameBytes (name : String) : List (BitVec 8) :=
  name.toList.map (fun c => if c.toNat < 128 then BitVec.ofNat 8 c.toNat else Config.placeholder)

/-- The length the host writes to DATA_LEN: the file's, or the largest 32-bit value for a file longer than that, so that an oversized
file is never taken for a shorter one (log 16, DESIGN CHOICE). -/
def hostDataLen (data : List (BitVec 8)) : BitVec 32 := BitVec.ofNat 32 (min data.length 0xFFFFFFFF)

/-- The planning phase of HostSendFile, up to its check of STATUS (70_reset_and_hazards.md R112, R113). Of a file longer than SRC, which
R113 cannot load, the host loads the `SRC_BYTES` bytes that fit (log 16, DESIGN CHOICE). -/
def planningActions (name data : List (BitVec 8)) : List HostAction :=
  writeRegister .status 0x80 :: srcLoad 0 (data.take Config.srcBytes) ++ writeRegister .dataLen (hostDataLen data) :: fnSet name ++
    command .hdrBuild ++ command .plan ++ [readRegister .status]

/-- One pass of HostSendFile: every frame built and read in index order (42_sequencer.md R90, 70_reset_and_hazards.md R114). -/
def passActions (fc : Nat) : List HostAction :=
  (List.range fc).flatMap (fun i => command (.pktBuild (BitVec.ofNat 16 (i + 1))) ++ pktRead)

/-- The block accesses of HostSendFile (70_reset_and_hazards.md R113) with a transport that never fails: the host ends after planning
when the block refuses the length, else reads the plan and makes its passes. Pacing and transport are outside the block (log 15). -/
def sendFileActions (name data : List (BitVec 8)) : List HostAction :=
  if data.length = 0 ∨ Config.sizeMax < data.length then planningActions name data
  else
    planningActions name data ++ [readRegister .frameCount, readRegister .passCount] ++
      (List.replicate (if data.length ≤ Config.singleMax then 1 else 2) (passActions (frameCount data.length))).flatten

end Sys2Proof.Machine
end

