-- ==== Sys2Proof/Tests/Slice0.lean ====
section
/-! SUPPORT. Tests: words written out from the encoding tables, the ill-formed accesses and words the checks refuse, single
steps with results taken from spec/95_test_vectors.md and the rules' own examples, and for each obligation with hypotheses states
and operands that meet them, at the boundary values of its clauses. -/

namespace Sys2Proof.Machine.Tests

set_option Elab.async false

def nextOf : Host.Outcome State Fault Refusal → Option State
  | .next t => some t
  | .fault _ => none
  | .refused _ => none

def faultOf : Host.Outcome State Fault Refusal → Option Fault
  | .next _ => none
  | .fault f => some f
  | .refused _ => none

def readOf : Except Fault HostValue → Option HostValue
  | .ok v => some v
  | .error _ => none

def stateOf : Except Fault State → Option State
  | .ok t => some t
  | .error _ => none

def readFault : Except Fault HostValue → Option Fault
  | .ok _ => none
  | .error f => some f

def writeFault : Except Fault State → Option Fault
  | .ok _ => none
  | .error f => some f

/-! ### States for the tests -/

/-- After reset with DATA_LEN written. -/
def withLen (n : BitVec 32) : State := { State.reset with dataLen := n }

/-- With a current plan. -/
def planned (n : BitVec 32) : State := { withLen n with plan := planRegs n.toNat }

/-- With a current plan, a current header of the empty name, and `n` file bytes in SRC. -/
def ready (n : BitVec 32) : State :=
  { planned n with
    hdrbuf := encodeHeader (Vector.replicate 50 0) 0 n
    hdrValid := true
    src := (List.range n.toNat).map (fun k => (k, BitVec.ofNat 8 k)) }

/-- With `k` filename bytes held. -/
def named (k : BitVec 6) : State := { State.reset with fnLen := k }

/-- "log.txt" in FNBUF and DATA_LEN 500 (95_test_vectors.md V-H1). -/
def logTxt : State :=
  { withLen 500 with
    fnbuf := (#v[0x6C, 0x6F, 0x67, 0x2E, 0x74, 0x78, 0x74] : Vector (BitVec 8) 7) ++ Vector.replicate 43 (0 : BitVec 8)
    fnLen := 7 }

/-- A word latched, the host waiting for it. -/
def latchedWord (w : BitVec 32) (s : State) : State := { s with pending := some w, hostQueue := [.wait] }

/-- RAW_OFF and RAW_LEN written over one SRC byte 0x77 at the top of SRC (95_test_vectors.md V-P16). -/
def rawTop (len : BitVec 32) : State :=
  { State.reset with rawOff := 0x1FFFFF, rawLen := len, src := [(0x1FFFFF, 0x77)] }

/-! ### Decoding: words written out from 30_encoding.md R65 and R71 -/

theorem test_decode_nop : decodeTableWord 32 0b00000000000000000000000000000000 = some .nop := by decide
theorem test_decode_crcInit : decodeTableWord 32 0b00000001000000000000000000000000 = some .crcInit := by decide
theorem test_decode_crcByte : decodeTableWord 32 0b00000010000000000000000001010100 = some (.crcByte 0x54) := by decide
theorem test_decode_fnClear : decodeTableWord 32 0b00010000000000000000000000000000 = some .fnClear := by decide
theorem test_decode_fnPush : decodeTableWord 32 0b00010001000000000000000011101001 = some (.fnPush 0xE9) := by decide
theorem test_decode_hdrBuild : decodeTableWord 32 0b00010010000000000000000000000000 = some .hdrBuild := by decide
theorem test_decode_plan : decodeTableWord 32 0b00100000000000000000000000000000 = some .plan := by decide
theorem test_decode_frameInfo :
    decodeTableWord 32 0b00100001000000000010010101101000 = some (.frameInfo 9576) := by decide
theorem test_decode_pktBuild : decodeTableWord 32 0b00110000000000000000000000000011 = some (.pktBuild 3) := by decide
theorem test_decode_pktRaw : decodeTableWord 32 0b00110001000000000000000000000010 = some (.pktRaw 2) := by decide
theorem test_decode_softReset : decodeTableWord 32 0b11111111000000000000000000000000 = some .softReset := by decide
/-- The encoder on the examples of 30_encoding.md R71. -/
theorem test_encode_examples : encode (.crcByte 0x54) = 0x02000054 ∧ encode (.pktBuild 3) = 0x30000003 ∧
    encode (.pktRaw 2) = 0x31000002 := by decide
/-- V-E2, V-E3, V-E4, V-E5, V-C17, V-S11, V-P18: the opcode check comes before the reserved-bit check. -/
theorem test_decode_refuses : decode 0x05000000 = .error .illegalCmd ∧ decode 0xFE123456 = .error .illegalCmd ∧
    decode 0x01000001 = .error .badArg ∧ decode 0xFF000001 = .error .badArg ∧ decode 0x02000100 = .error .badArg ∧
    decode 0x21010001 = .error .badArg ∧ decode 0x31000004 = .error .badArg := by
  refine ⟨?_, ?_, ?_, ?_, ?_, ?_, ?_⟩ <;> rfl
/-- No word for a row wider than the one format. -/
theorem test_decode_wide_row : decodeTableWord 40 0 = none := by decide

/-! ### WellFormed smoke test: an ill-formed access for each check -/

theorem test_illformed_size : (HostAction.read 0x200000 2).wellFormed = false := by decide
theorem test_illformed_alignment : (HostAction.read 0x000102 4).wellFormed = false := by decide
theorem test_illformed_regByte : (HostAction.write 0x000008 1 0).wellFormed = false := by decide
theorem test_wellformed_accesses : (HostAction.read 0x000008 4).wellFormed = true ∧
    (HostAction.write 0x200001 1 0).wellFormed = true ∧ HostAction.wait.wellFormed = true := by decide
theorem test_wellformed_operands : (Instr.crcByte 0xFF).wellFormed = true ∧ (Instr.pktRaw 3).wellFormed = true := by decide

/-! ### Single steps -/

/-- V-C1, V-C2, V-C3, V-C8. -/
theorem test_crc16_vectors : crc16 [] = 0 ∧ crc16 [0x54, 0x45, 0x53, 0x54] = 0x89D1 ∧
    crc16 [0x31, 0x32, 0x33, 0x34, 0x35, 0x36, 0x37, 0x38, 0x39] = 0x906E ∧
    crc16 [0x6C, 0x6F, 0x67, 0x2E, 0x74, 0x78, 0x74] = 0x7B37 := by decide +kernel
/-- 95_test_vectors.md 2.1, rows FFFF/FF, 1B26/45 and 0000/80. -/
theorem test_crcStep_vectors :
    crcStep 0xFFFF 0xFF = 0x00FF ∧ crcStep 0x1B26 0x45 = 0x5186 ∧ crcStep 0x0000 0x80 = 0x8408 := by decide +kernel
/-- 40_crc.md R74, its example. -/
theorem test_crcInit : (nextOf (exec .crcInit { State.reset with crcState := 0x762E })).map (·.crcState) = some 0xFFFF := by
  decide +kernel
/-- P1: the trace of "TEST" after its second byte. -/
theorem test_crcByte : (nextOf (exec (.crcByte 0x53) { State.reset with crcState := 0x5186 })).map (·.crcState) = some 0x8171 := by
  decide +kernel
/-- V-H1. -/
theorem test_hdrBuild_logTxt : (nextOf (exec .hdrBuild logTxt)).map
    (fun t => (t.fnCrc, t.crcState, t.hdrbuf.toList.drop 50, t.status)) =
      some (0x7B37, 0x84C8, [0x7B, 0x37, 0x00, 0x01, 0xF4], 0x00000002) := by decide +kernel
/-- V-H7. -/
theorem test_hdrBuild_tooLarge : (nextOf (exec .hdrBuild (withLen 0x200000))).map (·.status) = some 0x00000280 := by
  decide +kernel
/-- 41_header.md R80, its example: E9 is stored as 3F. -/
theorem test_fnPush_maps : (nextOf (exec (.fnPush 0xE9) (named 1))).map (fun t => (t.fnbuf[1], t.fnLen)) = some (0x3F, 2) := by
  decide +kernel
/-- V-H4: a byte past the 50th is dropped and flagged. -/
theorem test_fnPush_drops : (nextOf (exec (.fnPush 0x2E) (named 50))).map (fun t => (t.fnLen, t.status)) =
    some (50, 0x00000010) := by decide +kernel
/-- 41_header.md R78. -/
theorem test_fnClear : (nextOf (exec .fnClear { logTxt with fnTrunc := true, hdrValid := true })).map
    (fun t => (t.fnLen, t.fnbuf[0], t.status)) = some (0, 0, 0) := by decide +kernel
/-- Table V-S, rows 500 and 2,097,151. -/
theorem test_plan : (nextOf (exec .plan (withLen 500))).map (·.plan) = some ⟨2, 3, 2, 118⟩ ∧
    (nextOf (exec .plan (withLen 2097151))).map (·.plan) = some ⟨2, 9577, 2, 63⟩ := by decide +kernel
/-- P4: PLAN of an empty and of an oversized file. -/
theorem test_plan_errors : (nextOf (exec .plan (withLen 0))).map (·.status) = some 0x00000180 ∧
    (nextOf (exec .plan (withLen 0x200000))).map (·.status) = some 0x00000280 := by decide +kernel
/-- V-S8, V-S9. -/
theorem test_frameInfo : (nextOf (exec (.frameInfo 9576) (planned 2097151))).map (·.frame) = some ⟨9576, 1, 2096869, 219, 219⟩ ∧
    (nextOf (exec (.frameInfo 9577) (planned 2097151))).map (·.frame) = some ⟨9577, 2, 2097088, 63, 63⟩ := by decide +kernel
/-- V-S4, V-S5, V-S10. -/
theorem test_frameInfo_errors : (nextOf (exec (.frameInfo 4) (planned 500))).map (·.errCode) = some 0x04 ∧
    (nextOf (exec (.frameInfo 0) (planned 500))).map (·.errCode) = some 0x04 ∧
    (nextOf (exec (.frameInfo 1) (withLen 500))).map (·.errCode) = some 0x03 := by decide +kernel
/-- V-P4's shape: a SINGLE packet, its registers and its first data byte after the header. -/
theorem test_pktBuild_single : (nextOf (exec (.pktBuild 1) (ready 5))).map
    (fun t => (t.pktInfo.toWord, t.pktbuf[1], t.pktbuf[56], t.pktbuf[58], t.pktbuf[62])) =
      some (0x033C0001, 0x03, 0x05, 0x01, 0x00) := by decide +kernel
/-- V-P5 to V-P8. -/
theorem test_pktBuild_errors : (nextOf (exec (.pktBuild 1) (withLen 500))).map (·.errCode) = some 0x03 ∧
    (nextOf (exec (.pktBuild 0) (planned 500))).map (·.errCode) = some 0x04 ∧
    (nextOf (exec (.pktBuild 4) (planned 500))).map (·.errCode) = some 0x04 ∧
    (nextOf (exec (.pktBuild 1) (planned 500))).map (·.errCode) = some 0x03 := by decide +kernel
/-- V-P16, V-P17. -/
theorem test_pktRaw_top : (nextOf (exec (.pktRaw 2) (rawTop 1))).map (fun t => (t.pktInfo.toWord, t.pktbuf[2])) =
      some (0x02010000, 0x77) ∧
    (nextOf (exec (.pktRaw 2) (rawTop 2))).map (·.status) = some 0x00000780 := by decide +kernel
/-- V-P19: a range with an unwritten byte. -/
theorem test_pktRaw_unwritten :
    faultOf (exec (.pktRaw 0) { State.reset with rawOff := 0x100, rawLen := 1 }) = some .unwrittenSrcRead := by decide +kernel
/-- V-E6. -/
theorem test_nop : (nextOf (exec .nop { State.reset with errCode := 0x04, errSticky := true })).map (·.status) =
    some 0x00000080 := by decide +kernel
/-- V-E9. -/
theorem test_softReset : (nextOf (exec .softReset { ready 5 with errSticky := true, crcState := 0 })).map
    (fun t => (t.status, t.crcState, t.dataLen, t.src.length)) = some (0, 0xFFFF, 0, 5) := by decide +kernel

/-! ### The host port -/

/-- V-E10, V-E11, V-E15. -/
theorem test_read_registers : readOf (hostRead 0x000000 4 State.reset) = some (.word 0x42535231) ∧
    readOf (hostRead 0x000050 4 State.reset) = some (.word 0) ∧
    readOf (hostRead 0x000300 4 State.reset) = some (.word 0) := by decide +kernel
/-- V-E12, V-E13, V-E14 and a size no access has. -/
theorem test_host_faults : readFault (hostRead 0x000008 1 State.reset) = some .regByteAccess ∧
    readFault (hostRead 0x000102 4 State.reset) = some .misaligned ∧
    readFault (hostRead 0x00000C 4 (latchedWord 0 State.reset)) = some .busyAccess ∧
    readFault (hostRead 0x200000 2 State.reset) = some .badSize := by decide +kernel
/-- V-E7, V-E8, V-E16. -/
theorem test_write_registers :
    (stateOf (hostWrite 0x000008 4 0x80 { State.reset with errSticky := true })).map (·.status) = some 0 ∧
    (stateOf (hostWrite 0x000008 4 0x7F { State.reset with errSticky := true })).map (·.status) = some 0x80 ∧
    (stateOf (hostWrite 0x00000C 4 500 (ready 5))).map (fun t => (t.status, t.plan)) = some (0, ⟨0, 0, 0, 0⟩) := by
  decide +kernel
/-- 20_memory.md R50: a word write to SRC and its bytes. -/
theorem test_src_lanes : (stateOf (hostWrite 0x200004 4 0xDDCCBBAA State.reset)).map (·.src) =
    some [(4, 0xAA), (5, 0xBB), (6, 0xCC), (7, 0xDD)] := by decide +kernel
/-- 20_memory.md R55: an unwritten byte. -/
theorem test_src_unwritten : readFault (hostRead 0x200000 1 State.reset) = some .unwrittenSrcRead := by decide +kernel
/-- V-P22's shape: the word at the end of a 5-byte file's header. -/
theorem test_packet_window : ((nextOf (exec (.pktBuild 1) (ready 5))).map (fun t => readOf (hostRead 0x000138 4 t))) =
    some (some (.word 0x02010005)) := by decide +kernel

/-! ### The machine -/

/-- The first command after reset, latched where the engine takes it: CRC_BYTE 54 (V-C15). -/
theorem test_step_from_reset : (nextOf (step (State.reset.withFetchWord 32 0x02000054))).map
    (fun t => (t.crcState, t.status)) = some (0x1B26, 0) := by decide +kernel
/-- V-E2: an unassigned opcode. -/
theorem test_step_illegal : (nextOf (step (State.reset.withFetchWord 32 0x05000000))).map (·.status) = some 0x00000580 := by
  decide +kernel
/-- WAIT ends when BUSY reads 0. -/
theorem test_step_wait : (nextOf (step { State.reset with hostQueue := [.wait] })).map (·.hostQueue) = some [] := by
  decide +kernel
/-- The reset input unwrites SRC and clears the latch. -/
theorem test_step_powerOn :
    (nextOf (step { ready 5 with pending := some 0, pollsLeft := 1, hostQueue := [.powerOn] })).map
      (fun t => (t.src, t.pending, t.dataLen)) = some ([], none, 0) := by decide +kernel
/-- `CRC16 "A"` and `PKT_READ` expand as 30_encoding.md R72 says. -/
theorem test_driver : crc16Program [0x41] =
      [.write 0x000004 4 0x01000000, .wait, .write 0x000004 4 0x02000041, .wait, .read 0x000014 4] ∧
    pktRead.length = 56 := by decide +kernel

/-! ### Witnesses: states and operands that meet the hypotheses of the obligations, at the boundaries of their clauses -/

/-- Crc16DetectsOneChangedByte. -/
theorem witness_changed_byte : (0x00 : BitVec 8) ≠ 0x01 ∧ crc16 [0x41, 0x00] ≠ crc16 [0x41, 0x01] := by decide +kernel
/-- CrcInitStartsComputation, CrcByteAbsorbsOneByte: the states of their examples. -/
theorem witness_crc_states : (∃ t, exec .crcInit State.reset = .next t) ∧ State.reset.crcState = 0xFFFF ∧
    ({ State.reset with crcState := 0 } : State).crcState = 0x0000 := ⟨⟨_, rfl⟩, rfl, rfl⟩
/-- FnClearEmptiesName: both hypotheses at once, at the largest length. -/
theorem witness_fnClear : (∃ t, exec .fnClear (withLen 0x1FFFFF) = .next t) ∧ (withLen 0x1FFFFF).fileLen ≤ 0x1FFFFF :=
  ⟨⟨_, rfl⟩, by decide⟩
/-- FnPushAppendsOrTruncates: the last byte that fits and the first that does not; the last ASCII byte and the first other. -/
theorem witness_fnPush : (named 49).fnLen.toNat < 50 ∧ 50 ≤ (named 50).fnLen.toNat ∧
    (∃ t, exec (.fnPush 0) (named 49) = .next t) ∧ (0x7F : BitVec 8).toNat < 128 ∧ 128 ≤ (0x80 : BitVec 8).toNat ∧
    mapByte 0x7F = 0x7F ∧ mapByte 0x80 = 0x3F :=
  ⟨by decide, by decide, ⟨_, execFnPush_of_room 0 (by decide)⟩, by decide, by decide, by decide, by decide⟩
/-- HdrBuildBuildsHeader, HeaderSizeFieldHoldsLength: the largest length admitted and the least refused. -/
theorem witness_hdrBuild : (withLen 0x1FFFFF).fileLen ≤ 0x1FFFFF ∧ 0x1FFFFF < (withLen 0x200000).fileLen ∧
    ((nextOf (exec .hdrBuild (withLen 0x1FFFFF))).map (·.hdrValid) = some true) := by decide +kernel
/-- HdrBuildBuildsHeader: an empty name and an empty file, with the name invariant. -/
theorem witness_hdrBuild_empty : State.reset.fileLen ≤ 0x1FFFFF ∧ State.reset.dataLen = 0 ∧ State.reset.fnLen = 0 ∧
    State.reset.nameInv :=
  ⟨by decide, rfl, rfl, by decide, fun k h _ => by simp [State.reset]⟩
/-- HdrBuildBuildsHeader: the example's state. -/
theorem witness_hdrBuild_example : logTxt.fnLen = 7 ∧ logTxt.dataLen = 500 ∧
    logTxt.fnbuf.toList = [0x6C, 0x6F, 0x67, 0x2E, 0x74, 0x78, 0x74] ++ List.replicate 43 0 := by decide +kernel
/-- FrameCountIsLeastChunkCount: 1, 163, 164 and the largest length. -/
theorem witness_frameCount : frameCount 1 = 1 ∧ frameCount 163 = 1 ∧ frameCount 164 = 2 ∧ frameCount 0x1FFFFF = 9577 := by
  decide +kernel
/-- FrameGeometryTilesFile: each clause's first and last frames, and a payload of 218 bytes. -/
theorem witness_frameGeom : frameGeom 1 1 = ⟨.single, 0, 1, 56⟩ ∧ frameGeom 1 163 = ⟨.single, 0, 163, 218⟩ ∧
    frameGeom 1 164 = ⟨.first, 0, 163, 218⟩ ∧ frameGeom 2 164 = ⟨.last, 163, 1, 1⟩ ∧
    frameGeom 2 383 = ⟨.middle, 163, 219, 219⟩ ∧ frameGeom 9577 0x1FFFFF = ⟨.last, 2097088, 63, 63⟩ ∧
    (List.replicate 218 (0 : BitVec 8)).length = 218 := by decide +kernel
/-- PlanComputesFramePlan, PlannedFramesHaveTheirRoles, LengthChecksPrecedePackets: the lengths at which the clauses meet. -/
theorem witness_plan_lengths : 1 ≤ (withLen 1).fileLen ∧ (withLen 163).fileLen ≤ 163 ∧ 164 ≤ (withLen 164).fileLen ∧
    (withLen 0x1FFFFF).fileLen ≤ 0x1FFFFF ∧ (withLen 0).fileLen = 0 ∧ 0x1FFFFF < (withLen 0x200000).fileLen ∧
    (withLen 500).dataLen = 500 := by decide
/-- PlanComputesFramePlan: PLAN answers a next state at both ends of its range. -/
theorem witness_plan_next : (∃ t, exec .plan (withLen 1) = .next t) ∧ (∃ t, exec .plan (withLen 0x1FFFFF) = .next t) :=
  ⟨⟨_, rfl⟩, ⟨_, rfl⟩⟩
/-- PlanComputesFramePlan, LengthChecksPrecedePackets: the plan invariant with an empty and with an oversized length. -/
theorem witness_planInv_badLength : ((withLen 0).planInv ∧ (withLen 0).fileLen = 0 ∧ ∃ t, exec .plan (withLen 0) = .next t) ∧
    ((withLen 0x200000).planInv ∧ 0x1FFFFF < (withLen 0x200000).fileLen ∧ ∃ t, exec .plan (withLen 0x200000) = .next t) :=
  ⟨⟨by unfold State.planInv; decide, by decide, _, rfl⟩, ⟨by unfold State.planInv; decide, by decide, _, rfl⟩⟩
/-- PlannedFramesHaveTheirRoles: the first and the last index of a two-frame and of the largest plan. -/
theorem witness_planned_indices : 1 ≤ (1 : BitVec 16).toNat ∧ (2 : BitVec 16).toNat ≤ (planned 164).plan.frameCount.toNat ∧
    (9577 : BitVec 16).toNat ≤ (planned 0x1FFFFF).plan.frameCount.toNat := by decide +kernel
/-- FrameInfoReportsGeometry: a plan with its first and last index, an index of 0, one past the end, and no plan. -/
theorem witness_frameInfo : (planned 500).plan.mode ≠ 0 ∧ (1 : BitVec 16) ≠ 0 ∧
    (3 : BitVec 16).toNat ≤ (planned 500).plan.frameCount.toNat ∧ (planned 500).plan.frameCount.toNat < (4 : BitVec 16).toNat ∧
    (withLen 500).plan.mode = 0 ∧ (planned 500).dataLen = 500 ∧ 2 ≤ (planned 500).plan.frameCount.toNat := by decide +kernel
/-- FrameInfoReportsGeometry, PlannedPacketsReassembleFile: a current plan with one frame and with three. -/
theorem witness_currentPlan : (planned 5).currentPlanInv ∧ (planned 5).plan.mode ≠ 0 ∧ (planned 5).plan.frameCount = 1 ∧
    (planned 500).currentPlanInv ∧ (planned 500).plan.mode ≠ 0 ∧ (planned 500).plan.frameCount = 3 :=
  ⟨.inr ⟨by decide, by decide, rfl⟩, by decide +kernel, by decide +kernel, .inr ⟨by decide, by decide, rfl⟩,
    by decide +kernel, by decide +kernel⟩
/-- EncodePacketLayout: payloads of 219 and 220 bytes, and the empty one. -/
theorem witness_payload_lengths : 218 < (List.replicate 219 (1 : BitVec 8)).length ∧
    (encodePacket 0 0 (List.replicate 220 1))[220] = 1 ∧ (encodePacket 0 0 [])[2] = 0 := by decide +kernel
/-- PktBuildSerializesFrame: frame 1 of a one-byte file, with its header and its byte. -/
theorem witness_pktBuild_first : (ready 1).plan.mode ≠ 0 ∧ (1 : BitVec 16) ≠ 0 ∧
    (1 : BitVec 16).toNat ≤ (ready 1).plan.frameCount.toNat ∧ (ready 1).hdrValid = true ∧
    [(0 : BitVec 8)].length = (frameGeom 1 (ready 1).fileLen).dlen ∧ (ready 1).src.read 0 = some 0 := by decide +kernel
/-- PktBuildSerializesFrame: the last frame of a 164-byte file, with no header and only its own byte written. -/
theorem witness_pktBuild_last : ({ planned 164 with src := [(163, 0x55)] } : State).plan.mode ≠ 0 ∧ (2 : BitVec 16) ≠ 0 ∧
    (2 : BitVec 16).toNat ≤ (planned 164).plan.frameCount.toNat ∧ (2 : BitVec 16) ≠ 1 ∧
    [(0x55 : BitVec 8)].length = (frameGeom 2 (planned 164).fileLen).dlen ∧
    ({ planned 164 with src := [(163, 0x55)] } : State).src.read ((frameGeom 2 (planned 164).fileLen).off + 0) = some 0x55 := by
  decide +kernel
/-- PktBuildChecksInOrder: each check's state; the last is an unwritten byte in a frame that passes the others. -/
theorem witness_pktBuild_checks : (withLen 5).plan.mode = 0 ∧ (planned 500).plan.frameCount.toNat < (4 : BitVec 16).toNat ∧
    1 ≤ (planned 5).plan.frameCount.toNat ∧ (planned 5).hdrValid = false ∧ (planned 5).plan.mode ≠ 0 ∧
    0 < (frameGeom 2 (planned 164).fileLen).dlen ∧ (planned 164).src.read ((frameGeom 2 (planned 164).fileLen).off + 0) = none ∧
    faultOf (exec (.pktBuild 2) (planned 164)) = some .unwrittenSrcRead := by decide +kernel
/-- FirstPacketCarriesCurrentHeader, BuiltPacketsAreWellFormed, SecondPassRepeatsFirst: a frame-1 packet that builds, and a state
that differs outside what the packet depends on. -/
theorem witness_first_packet : (ready 1).currentPlanInv ∧ (ready 1).headerInv ∧
    ((nextOf (exec (.pktBuild 1) (ready 1))).map (·.errCode) = some 0) ∧
    ((nextOf (exec (.pktBuild 1) { ready 1 with crcState := 0, errSticky := true })).map (·.errCode) = some 0) :=
  ⟨.inr ⟨by decide, by decide, rfl⟩, fun _ => ⟨by decide, rfl⟩, by decide +kernel, by decide +kernel⟩
/-- FirstPacketCarriesCurrentHeader: its lengths clause at 163 bytes. -/
theorem witness_first_packet_163 : (ready 163).fileLen ≤ 163 ∧
    ((nextOf (exec (.pktBuild 1) (ready 163))).map (fun t => (t.errCode, t.pktbuf[219], t.pktbuf[220])) =
      some (0, 162, 0)) := by decide +kernel
/-- PktRawSerializesRange: the last range inside SRC, the first outside, an unwritten byte, an empty payload, and the example. -/
theorem witness_pktRaw : (rawTop 1).rawOff.toNat + min (rawTop 1).rawLen.toNat 219 ≤ 0x200000 ∧
    [(0x77 : BitVec 8)].length = min (rawTop 1).rawLen.toNat 219 ∧ (rawTop 1).src.read ((rawTop 1).rawOff.toNat + 0) = some 0x77 ∧
    0x200000 < (rawTop 2).rawOff.toNat + min (rawTop 2).rawLen.toNat 219 ∧
    ({ rawTop 1 with src := [] } : State).src.read ((rawTop 1).rawOff.toNat + 0) = none ∧ State.reset.rawLen = 0 ∧
    ({ State.reset with rawLen := 1, src := [(0, 0x41)] } : State).src.read 0 = some 0x41 := by decide +kernel
/-- PlannedPacketsReassembleFile: a one-byte file with its plan, header and byte. -/
theorem witness_reassemble : (ready 1).currentPlanInv ∧ (ready 1).plan.mode ≠ 0 ∧ (ready 1).hdrValid = true ∧
    [(0 : BitVec 8)].length = (ready 1).fileLen ∧ (ready 1).src.read 0 = some 0 ∧
    ((nextOf (exec (.pktBuild 1) (ready 1))).map (·.packetData) = some [0]) :=
  ⟨.inr ⟨by decide, by decide, rfl⟩, by decide +kernel, by decide +kernel, by decide +kernel, by decide +kernel,
    by decide +kernel⟩
/-- EncodeInvertsDecode, DecodeFollowsOpcodeMap: a word of each operand shape at its largest operand. -/
theorem witness_table_words : (0x020000FF : BitVec 32) &&& 0xFFFFFF00 = 0x02000000 ∧
    (0x2100FFFF : BitVec 32) &&& 0xFFFF0000 = 0x21000000 ∧ (0x31000003 : BitVec 32) &&& 0xFFFFFFFC = 0x31000000 ∧
    decodeTableWord 32 0x020000FF = some (.crcByte 0xFF) ∧ decodeTableWord 32 0x2100FFFF = some (.frameInfo 0xFFFF) ∧
    decodeTableWord 32 0x31000003 = some (.pktRaw 3) := by decide
/-- UnassignedOpcodesAreIllegal: both ends of each range. -/
theorem witness_unassigned : ∀ n ∈ [0x03, 0x0F, 0x13, 0x1F, 0x22, 0x2F, 0x32, 0xFE],
    Opcode.ofByte (BitVec.ofNat 8 n) = none := by decide
/-- ReservedArgBitsAreBadArg, SoftResetKeepsOnlySrc: the lowest reserved bit of an opcode with an operand and of one without. -/
theorem witness_reserved : (0x000100 : BitVec 24) &&& ~~~Opcode.crcByte.argMask ≠ 0 ∧
    (0x000004 : BitVec 24) &&& ~~~Opcode.pktRaw.argMask ≠ 0 ∧ (0x000001 : BitVec 24) &&& ~~~Opcode.softReset.argMask ≠ 0 ∧
    3 < (0x000004 : BitVec 24).toNat := by decide
/-- EngineStepFollowsRule, StepRunsDecodedCommand: a latched word for each of the three ways, with the engine's turn come. -/
theorem witness_engine_turn : engineTurn (latchedWord 0x05000000 State.reset) = true ∧
    Opcode.ofByte (opcField 0x05000000) = none ∧ Opcode.ofByte (opcField 0x01000001) = some .crcInit ∧
    argField 0x01000001 &&& ~~~Opcode.crcInit.argMask ≠ 0 ∧ Opcode.ofByte (opcField 0x02000054) = some .crcByte ∧
    argField 0x02000054 &&& ~~~Opcode.crcByte.argMask = 0 ∧ (latchedWord 0x02000054 State.reset).pending = some 0x02000054 ∧
    (Instr.crcByte 0x54).wellFormed = true ∧ decodeTableWord 32 0x02000054 = some (.crcByte 0x54) ∧
    State.reset.pending = none := by decide
/-- FailedCommandHasNoPartialEffect, ErrorCodesHaveTheirCauses: an engine step that ends in each error code. -/
theorem witness_each_error : (nextOf (engineStep 0x20000000 State.reset)).map (·.errCode) = some 0x01 ∧
    (nextOf (engineStep 0x12000000 (withLen 0x200000))).map (·.errCode) = some 0x02 ∧
    (nextOf (engineStep 0x30000001 State.reset)).map (·.errCode) = some 0x03 ∧
    (nextOf (engineStep 0x30000001 (planned 5))).map (·.errCode) = some 0x03 ∧
    (nextOf (engineStep 0x21000000 (planned 5))).map (·.errCode) = some 0x04 ∧
    (nextOf (engineStep 0xFE123456 State.reset)).map (·.errCode) = some 0x05 ∧
    (nextOf (engineStep 0x01000001 State.reset)).map (·.errCode) = some 0x06 ∧
    (nextOf (engineStep 0x31000000 (rawTop 2))).map (·.errCode) = some 0x07 := by decide +kernel
/-- ErrStickyClearedOnlyThreeWays: a step that clears ERR_STICKY in each of the three ways. -/
theorem witness_sticky : (nextOf (step { State.reset with errSticky := true, hostQueue := [.write 0x000008 4 0x80] })).map
      (·.errSticky) = some false ∧
    (nextOf (step (latchedWord 0xFF000000 { State.reset with errSticky := true }))).map (·.errSticky) = some false ∧
    (nextOf (step { State.reset with errSticky := true, hostQueue := [.powerOn] })).map (·.errSticky) = some false := by
  decide +kernel
/-- RegisterMapReads, StatusBitsAndWrite, CmdWriteLatchesCommand: a block that is not busy and one that is. -/
theorem witness_busy : State.reset.busy = false ∧ (latchedWord 0 State.reset).busy = true := by decide
/-- CmdWriteLatchesCommand: after the write the engine's turn has come when the host waits. -/
theorem witness_cmd_write : (stateOf (hostWrite 0x000004 4 0 { State.reset with hostQueue := [.wait] })).map
    (fun t => (engineTurn t, t.pending)) = some (true, some 0) := by decide +kernel
/-- DataLenWriteInvalidates, StaleHeaderOrPlanIsCaught: a DATA_LEN write above SIZE_MAX, and FN_CLEAR and FN_PUSH in a planned state. -/
theorem witness_stale : (∃ t, hostWrite 0x00000C 4 0x200000 (ready 5) = .ok t) ∧ 0x1FFFFF < (0x200000 : BitVec 32).toNat ∧
    (planned 5).planInv ∧ (∃ t, exec .fnClear (planned 5) = .next t) ∧ (∃ t, exec (.fnPush 0x41) (planned 5) = .next t) :=
  ⟨⟨_, rfl⟩, by decide, by unfold State.planInv; decide +kernel, ⟨_, rfl⟩, ⟨_, execFnPush_of_room 0x41 (by decide)⟩⟩
/-- HostFaultsExactly, HostLanesAreLittleEndian, ReservedSpaceReadsZero, BufferWindowsAreReadOnly, SrcWindowStoresBytes: the addresses at
which their clauses meet. -/
theorem witness_addresses : regionOf 0x0000FF = .reg ∧ regionOf 0x000100 = .pktbuf ∧ regionOf 0x0001FF = .pktbuf ∧
    regionOf 0x000200 = .hdrbuf ∧ regionOf 0x00023F = .hdrbuf ∧ regionOf 0x000240 = .reserved ∧ regionOf 0x1FFFFF = .reserved ∧
    regionOf 0x200000 = .src ∧ regionOf 0x3FFFFF = .src ∧ Reg.ofOffset 0x00004C = some .pktInfo ∧ Reg.ofOffset 0x000050 = none ∧
    (0x1DD : Addr).toNat = 0x100 + 221 ∧ (0x237 : Addr).toNat = 0x200 + 55 ∧ (0x3FFFFC : Addr).toNat % 4 = 0 := by decide
/-- HostFaultsExactly: a queued read and a queued write that are refused. -/
theorem witness_refused_access : hostRead 0x000102 4 { State.reset with hostQueue := [.read 0x000102 4] } = .error .misaligned ∧
    hostWrite 0x000008 1 0 { State.reset with hostQueue := [.write 0x000008 1 0] } = .error .regByteAccess := ⟨rfl, rfl⟩
/-- SrcWindowStoresBytes: a byte written at each end of the window, read back, and an unwritten byte in a word. -/
theorem witness_src : (∃ t, hostWrite 0x3FFFFF 1 0x77 State.reset = .ok t) ∧ (rawTop 1).src.read (0x3FFFFF - 0x200000) = some 0x77 ∧
    State.reset.src.read 0 = none ∧ readFault (hostRead 0x3FFFFC 4 (rawTop 1)) = some .unwrittenSrcRead :=
  ⟨⟨_, rfl⟩, by decide, rfl, by decide +kernel⟩
/-- ReadsHaveNoSideEffects: a queued read that goes on, each write with a side effect, and an SRC write repeated. -/
theorem witness_reads : (∃ t, hostStep { State.reset with hostQueue := [.read 0x000000 4] } = .next t) ∧
    (∃ t, hostWrite 0x04 4 0 State.reset = .ok t) ∧ (∃ t, hostWrite 0x08 4 0x80 State.reset = .ok t) ∧
    (∃ t, hostWrite 0x0C 4 5 State.reset = .ok t) ∧ (∃ t, hostWrite 0x44 4 5 State.reset = .ok t) ∧
    (∃ t, hostWrite 0x48 4 5 State.reset = .ok t) ∧ State.reset.srcInv ∧ (∃ t, hostWrite 0x200000 4 5 State.reset = .ok t) :=
  ⟨⟨_, rfl⟩, ⟨_, rfl⟩, ⟨_, rfl⟩, ⟨_, rfl⟩, ⟨_, rfl⟩, ⟨_, rfl⟩, rfl, ⟨_, rfl⟩⟩
/-- BusyAllowsStatusReadsOnly, EngineStepFollowsFinitelyManyPolls: a command with one access of latency left, the host polling STATUS,
then waiting, and a host that reads elsewhere. -/
theorem witness_polling : ({ State.reset with pending := some 0, pollsLeft := 1, hostQueue := [.read 0x000008 4, .wait] } : State).pending =
      some 0 ∧
    (∀ x ∈ [HostAction.read 0x000008 4, .wait], x = .read 0x000008 4 ∨ x = .wait) ∧
    ((nextOf (step { State.reset with pending := some 0, pollsLeft := 1, hostQueue := [.read 0x000008 4, .wait] })).map
      (fun t => (t.pending, t.pollsLeft, t.hostReads)) = some (some 0, 0, [.word 1])) ∧
    faultOf (step { State.reset with pending := some 0, pollsLeft := 1, hostQueue := [.read 0x00000C 4] }) = some .busyAccess ∧
    faultOf (step { State.reset with pending := some 0, pollsLeft := 1, hostQueue := [.write 0x000004 4 0] }) = some .busyAccess := by
  refine ⟨rfl, by decide, ?_, ?_, ?_⟩ <;> decide +kernel
/-- OnlyNamedWritersWriteState: steps that write CRC_STATE, FNBUF, HDRBUF, PKTBUF and SRC with neither reset asserted nor SOFT_RESET. -/
theorem witness_writers : (nextOf (step (latchedWord 0x02000054 State.reset))).map (·.crcState) = some 0x1B26 ∧
    (nextOf (step (latchedWord 0x11000041 State.reset))).map (·.fnbuf[0]) = some 0x41 ∧
    (nextOf (step (latchedWord 0x12000000 (withLen 5)))).map (·.hdrbuf[54]) = some 5 ∧
    (nextOf (step (latchedWord 0x31000002 (rawTop 1)))).map (fun t => (t.pktbuf[2], t.pktValid)) = some (0x77, true) ∧
    (nextOf (step { State.reset with hostQueue := [.write 0x200000 1 0x41] })).map (·.src) = some [(0, 0x41)] := by
  decide +kernel
/-- CommandFrames: each command answers a next state. -/
theorem witness_frames : (∃ t, exec .nop (ready 1) = .next t) ∧ (∃ t, exec .crcInit (ready 1) = .next t) ∧
    (∃ t, exec .fnClear (ready 1) = .next t) ∧ (∃ t, exec .hdrBuild (ready 1) = .next t) ∧
    (∃ t, exec .plan (ready 1) = .next t) ∧ (∃ t, exec (.frameInfo 1) (ready 1) = .next t) ∧
    (∃ t, exec (.pktBuild 1) (ready 1) = .next t) ∧ (∃ t, exec (.pktRaw 0) (rawTop 1) = .next t) ∧
    (∃ t, exec .softReset (ready 1) = .next t) :=
  ⟨⟨_, rfl⟩, ⟨_, rfl⟩, ⟨_, rfl⟩, ⟨_, rfl⟩, ⟨_, rfl⟩, ⟨_, rfl⟩,
    ⟨_, execPktBuild_eq (data := [0]) (by decide +kernel) (by decide +kernel) (fun _ => rfl) (by decide +kernel)⟩,
    ⟨_, execPktRaw_eq (pay := [0x77]) (by decide +kernel) (by decide +kernel)⟩, ⟨_, rfl⟩⟩
/-- StepKeepsSpecInvariants, StepKeepsPlanCurrent, StepKeepsPacketWellFormed, StepKeepsSrcCanonical: a planned state with a header and
its file meets every invariant, and a step from it, here PKT_BUILD 1, goes on. -/
theorem witness_invariants : (ready 1).planInv ∧ (ready 1).headerInv ∧ (ready 1).nameInv ∧ (ready 1).currentPlanInv ∧
    (ready 1).frameInv ∧ (ready 1).packetInv ∧ (ready 1).errCodeInv ∧ (ready 1).srcInv ∧
    ((nextOf (step (latchedWord 0x30000001 (ready 1)))).map (fun t => (t.pktValid, t.frame)) = some (true, ⟨1, 3, 0, 1, 56⟩)) := by
  refine ⟨?_, ?_, ?_, ?_, ?_, ?_, ?_, ?_, ?_⟩
  · unfold State.planInv; decide +kernel
  · exact fun _ => ⟨by decide, rfl⟩
  · exact ⟨by decide, fun k h _ => by simp [ready, planned, withLen, State.reset]⟩
  · exact .inr ⟨by decide, by decide, rfl⟩
  · intro h; exact absurd rfl h
  · intro h; cases h
  · unfold State.errCodeInv; decide
  · rfl
  · decide +kernel

/-- StepKeepsPacketWellFormed, StepKeepsPlanCurrent: a state that holds a packet and a selected frame meets their invariants. -/
theorem witness_packetInv_built : ({ ready 1 with
    pktValid := true, pktbuf := encodePacket Config.typeTag (roleByte 2) [0x77], pktInfo := ⟨0, 1, 2⟩,
    frame := ⟨1, 3, 0, 1, 56⟩ } : State).packetInv ∧
    ({ ready 1 with frame := ⟨1, 3, 0, 1, 56⟩ } : State).frameInv := by
  refine ⟨fun _ => ⟨rfl, rfl, by decide, fun k h hk => ?_⟩, fun _ => ?_⟩
  · rw [encodePacket_getElem, if_neg (by omega), if_neg (by omega)]
    cases k with
    | zero => exact absurd hk (by decide)
    | succ k => simp [show 2 + (k + 1) - 2 = k + 1 by omega]
  · decide
/-- BuiltPacketsAreWellFormed: the longest payload that leaves a byte of padding. -/
theorem witness_padding : (List.replicate 218 (0 : BitVec 8)).length < 219 := by rw [List.length_replicate]; decide
/-- EngineStepFollowsRule, CmdWriteLatchesCommand: a latched word with nothing left for the host to do, and an empty latch. -/
theorem witness_engine_rule : (State.reset.withFetchWord 32 0x05000000).pending = some 0x05000000 ∧
    (State.reset.withFetchWord 32 0x05000000).hostQueue = [] ∧ State.reset.pending = none ∧
    (stateOf (hostWrite 0x000004 4 0 State.reset)).map (·.hostQueue) = some [] := ⟨by decide, rfl, rfl, rfl⟩

/-- SecondPassRepeatsFirst: two states that differ elsewhere agree on what the packet needs, and with SRC unwritten both stop. -/
theorem witness_second_pass : ({ ready 1 with crcState := 0, pktValid := true } : State).src = (ready 1).src ∧
    (nextOf (exec (.pktBuild 1) { ready 1 with crcState := 0, pktValid := true })).map (·.errCode) = some 0 ∧
    faultOf (exec (.pktBuild 1) { ready 1 with src := [] }) = some .unwrittenSrcRead := by
  refine ⟨rfl, ?_, ?_⟩ <;> decide +kernel
/-- HostFaultsExactly, ReadsHaveNoSideEffects, BusyAllowsStatusReadsOnly: with the latch empty, a queued write, read and WAIT that are
done and a queued read that is refused. -/
theorem witness_host_actions :
    (stateOf (hostWrite 0x00000C 4 5 State.reset)).map (·.dataLen) = some 5 ∧
    (nextOf (step { State.reset with hostQueue := [.write 0x00000C 4 5, .wait] })).map (fun t => (t.dataLen, t.hostQueue)) =
      some (5, [.wait]) ∧
    (nextOf (step { State.reset with hostQueue := [.read 0x000010 4] })).map (fun t => (t.hostReads, t.hostQueue)) =
      some ([.word 0xFFFF], []) ∧
    (nextOf (step { State.reset with hostQueue := [.wait] })).map (·.hostQueue) = some [] ∧
    faultOf (step { State.reset with hostQueue := [.read 0x000102 4] }) = some .misaligned := by
  refine ⟨?_, ?_, ?_, ?_, ?_⟩ <;> decide +kernel
/-- HostFaultsExactly: a bad size, a misaligned read of written bytes, and an aligned read that meets an unwritten byte. -/
theorem witness_refusals : readFault (hostRead 0x200000 2 State.reset) = some .badSize ∧
    (∀ j, j < 4 → (ready 5).src.read (0x200001 - 0x200000 + j) ≠ none) ∧
    readFault (hostRead 0x200001 4 (ready 5)) = some .misaligned ∧
    readFault (hostRead 0x200004 4 (ready 5)) = some .unwrittenSrcRead := by
  refine ⟨?_, ?_, ?_, ?_⟩ <;> decide +kernel
/-- ResetValues: the reset input with the latch empty and while a latched command's latency lasts. -/
theorem witness_powerOn : (nextOf (step { ready 5 with hostQueue := [.powerOn] })).map (fun t => (t.src, t.dataLen)) = some ([], 0) ∧
    ({ ready 5 with pending := some 0, pollsLeft := 1, hostQueue := [.powerOn] } : State).pollsLeft ≠ 0 := by
  refine ⟨?_, ?_⟩ <;> decide +kernel
/-- OpenHostAccessesFollowLogs: both ends of the reserved region, a bad size, and a misaligned read of unwritten bytes. -/
theorem witness_open_accesses : 0x240 ≤ (0x240 : Addr).toNat ∧ (0x1FFFFF : Addr).toNat < 0x200000 ∧
    readOf (hostRead 0x1FFFFF 1 State.reset) = some (.byte 0) ∧ readOf (hostRead 0x240 1 State.reset) = some (.byte 0) ∧
    readFault (hostRead 0x200001 4 State.reset) = some .misaligned ∧
    readFault (hostRead 0x200000 2 (latchedWord 0 State.reset)) = some .busyAccess ∧
    writeFault (hostWrite 0x200000 2 0 State.reset) = some .badSize := by
  refine ⟨?_, ?_, ?_, ?_, ?_, ?_, ?_⟩ <;> decide +kernel

end Sys2Proof.Machine.Tests
end

-- ==== State family (10_state.md): what holds in every state ====
section
/-! The obligations of 10_state.md about registers read and written through the host port (R17, R20, R22) and about the spec's
invariants of the plan, the header and the name (R43). -/

namespace Sys2Proof.Machine

section registerPort
variable {s t : State}

/-! Host accesses to a named register. -/

theorem regionOf_offset (r : Reg) : regionOf r.offset = .reg := by cases r <;> rfl

theorem offset_aligned (r : Reg) : r.offset.toNat % 4 = 0 := by cases r <;> rfl

theorem ofOffset_offset (r : Reg) : Reg.ofOffset r.offset = some r := by cases r <;> decide

/-- While the block is not busy, a 32-bit access to a named register is admitted. -/
theorem hostFault_register (isRead : Bool) (r : Reg) (h : s.busy = false) :
    hostFault isRead r.offset 4 s = none :=
  hostFault_eq_none_iff.2 ⟨by simp [h], .inr rfl, fun _ => offset_aligned r, by simp⟩

/-- A 32-bit host read of a named register returns what the register map says. -/
theorem hostRead_register (r : Reg) (h : s.busy = false) :
    hostRead r.offset 4 s = .ok (.word (readReg s r)) := by
  simp [hostRead, hostFault_register true r h, regionOf_offset, readRegAt, ofOffset_offset]

/-- A 32-bit host write to a named register does what the register map says. -/
theorem hostWrite_register (r : Reg) (v : BitVec 32) (h : s.busy = false) :
    hostWrite r.offset 4 v s = .ok (writeReg v s r) := by
  simp [hostWrite, hostFault_register false r h, regionOf_offset, ofOffset_offset]

/-- A write is admitted only while the block is not busy (70_reset_and_hazards.md R121). -/
theorem not_busy_of_hostWrite_ok {a : Addr} {size : Nat} {v : BitVec 32} (h : hostWrite a size v s = .ok t) :
    s.busy = false := by
  obtain ⟨hf, -⟩ := hostWrite_ok h
  obtain ⟨hbusy, -⟩ := hostFault_eq_none_iff.1 hf
  simpa [isStatusRead] using hbusy

@[simp] theorem setDataLen_busy (v : BitVec 32) (s : State) : (setDataLen v s).busy = s.busy := rfl

end registerPort

/-! The commands on a length above SIZE_MAX. -/

theorem execPlan_of_oversized {s : State} (h : Config.sizeMax < s.fileLen) :
    execPlan s = .next (raiseCmdError .sizeLimit s) := by
  have hne : s.fileLen ≠ 0 := by omega
  simp [execPlan, hne, h]

theorem execHdrBuild_of_oversized {s : State} (h : Config.sizeMax < s.fileLen) :
    execHdrBuild s = .next (raiseCmdError .sizeLimit s) := by
  simp [execHdrBuild, h]

/-! The spec's invariants of 10_state.md R43, taken together. -/

/-- The spec's invariants of the plan, the header and the name (10_state.md R43). -/
structure State.SpecInv (s : State) : Prop where
  plan : s.planInv
  header : s.headerInv
  name : s.nameInv

/-- The fields the invariants of R43 read. -/
def State.specPart (s : State) :
    PlanRegs × BitVec 32 × Bool × Vector (BitVec 8) 55 × Vector (BitVec 8) 50 × BitVec 6 :=
  (s.plan, s.dataLen, s.hdrValid, s.hdrbuf, s.fnbuf, s.fnLen)

section invariants
variable {s t : State}

theorem planInv_congr (hp : t.plan = s.plan) (hd : t.dataLen = s.dataLen) (h : s.planInv) : t.planInv := by
  simpa only [State.planInv, State.planValid, State.fileLen, hp, hd] using h

theorem nameInv_congr (hb : t.fnbuf = s.fnbuf) (hl : t.fnLen = s.fnLen) (h : s.nameInv) : t.nameInv := by
  simpa only [State.nameInv, hb, hl] using h

/-- The invariants depend on `State.specPart` alone. -/
theorem State.SpecInv.congr (hs : s.SpecInv) (h : t.specPart = s.specPart) : t.SpecInv := by
  simp only [State.specPart, Prod.mk.injEq] at h
  obtain ⟨hplan, hlen, hvalid, hhdr, hfn, hfl⟩ := h
  refine ⟨planInv_congr hplan hlen hs.plan, ?_, nameInv_congr hfn hfl hs.name⟩
  simpa only [State.headerInv, State.fileLen, hlen, hvalid, hhdr, hfn, hfl] using hs.header

theorem planInv_of_none (h : t.plan = PlanRegs.none) : t.planInv := by
  simp [State.planInv, State.planValid, h]

theorem headerInv_of_invalid (h : t.hdrValid = false) : t.headerInv := by
  simp [State.headerInv, h]

theorem nameInv_of_empty (hb : t.fnbuf = Vector.replicate 50 0) (hl : t.fnLen = 0) : t.nameInv := by
  simp [State.nameInv, hb, hl]

theorem reset_specInv : State.reset.SpecInv :=
  ⟨planInv_of_none rfl, headerInv_of_invalid rfl, nameInv_of_empty rfl rfl⟩

/-- A file of more than 163 and at most SIZE_MAX bytes takes 2 to 9577 frames (42_sequencer.md R87). -/
theorem frameCount_bounds {n : Nat} (hlo : Config.singleMax < n) (hhi : n ≤ Config.sizeMax) :
    2 ≤ frameCount n ∧ frameCount n ≤ 9577 := by
  simp only [Config.singleMax, Config.sizeMax] at hlo hhi
  simp only [frameCount, ceilDiv, Config.singleMax, Config.firstDataMax, Config.midDataMax, Nat.not_le.2 hlo, if_false]
  omega

/-- The registers PLAN writes are those of a plan that R43 allows: SINGLE up to 163 bytes, else MULTI. -/
theorem planInv_of_planRegs (hplan : t.plan = planRegs t.fileLen) (hlo : 1 ≤ t.fileLen)
    (hhi : t.fileLen ≤ Config.sizeMax) : t.planInv := by
  by_cases hsingle : t.fileLen ≤ Config.singleMax
  · simp [State.planInv, State.planValid, hplan, planRegs, frameCount, hsingle, hlo, hhi]
  · obtain ⟨hmin, hmax⟩ := frameCount_bounds (Nat.lt_of_not_le hsingle) hhi
    have hfits : frameCount t.fileLen % 65536 = frameCount t.fileLen := Nat.mod_eq_of_lt (by omega)
    simp [State.planInv, State.planValid, hplan, planRegs, hsingle, hlo, hhi, hfits, hmin]

/-- Storing a byte at FN_LEN and counting it leaves the bytes after the name 0 (41_header.md R80). -/
theorem nameInv_of_push {b : BitVec 8} (hroom : s.fnLen.toNat < 50) (hb : t.fnbuf = s.fnbuf.set s.fnLen.toNat b hroom)
    (hl : t.fnLen = s.fnLen + 1) (h : s.nameInv) : t.nameInv := by
  have hlen : t.fnLen.toNat = s.fnLen.toNat + 1 := by
    rw [hl]; bv_omega
  refine ⟨by omega, fun k hk hge => ?_⟩
  rw [hlen] at hge
  have hrest : s.fnbuf[k] = 0 := h.2 k hk (by omega)
  simpa [hb, Vector.getElem_set_ne hroom hk (show s.fnLen.toNat ≠ k by omega)] using hrest

/-! The writers of `State.specPart`, one lemma each, then every command. -/

theorem execFnClear_keeps_specInv (hs : s.SpecInv) (h : execFnClear s = .next t) : t.SpecInv := by
  cases h
  exact ⟨planInv_congr rfl rfl hs.plan, headerInv_of_invalid rfl, nameInv_of_empty rfl rfl⟩

theorem execFnPush_keeps_specInv {b : BitVec 8} (hs : s.SpecInv) (h : execFnPush b s = .next t) : t.SpecInv := by
  obtain ⟨hroom, rfl⟩ | ⟨-, rfl⟩ := execFnPush_next h
  · exact ⟨planInv_congr rfl rfl hs.plan, headerInv_of_invalid rfl, nameInv_of_push hroom rfl rfl hs.name⟩
  · exact ⟨planInv_congr rfl rfl hs.plan, headerInv_of_invalid rfl, nameInv_congr rfl rfl hs.name⟩

theorem execHdrBuild_keeps_specInv (hs : s.SpecInv) (h : execHdrBuild s = .next t) : t.SpecInv := by
  obtain ⟨-, rfl⟩ | ⟨hsize, rfl⟩ := execHdrBuild_next h
  · exact hs.congr rfl
  · exact ⟨planInv_congr rfl rfl hs.plan, fun _ => ⟨hsize, rfl⟩, nameInv_congr rfl rfl hs.name⟩

theorem execPlan_keeps_specInv (hs : s.SpecInv) (h : execPlan s = .next t) : t.SpecInv := by
  obtain ⟨-, rfl⟩ | ⟨-, rfl⟩ | ⟨hlo, hhi, rfl⟩ := execPlan_next h
  · exact hs.congr rfl
  · exact hs.congr rfl
  · exact ⟨planInv_of_planRegs rfl hlo hhi, hs.header, nameInv_congr rfl rfl hs.name⟩

theorem execFrameInfo_specPart {index : BitVec 16} (h : execFrameInfo index s = .next t) :
    t.specPart = s.specPart := by
  obtain ⟨-, rfl⟩ | ⟨-, -, rfl⟩ | ⟨-, -, rfl⟩ := execFrameInfo_next h <;> rfl

theorem execPktBuild_specPart {index : BitVec 16} (h : execPktBuild index s = .next t) :
    t.specPart = s.specPart := by
  obtain ⟨-, rfl⟩ | ⟨-, -, rfl⟩ | ⟨-, -, -, -, rfl⟩ | ⟨-, -, -, data, -, rfl⟩ := execPktBuild_next h <;> rfl

theorem execPktRaw_specPart {role : BitVec 2} (h : execPktRaw role s = .next t) :
    t.specPart = s.specPart := by
  obtain ⟨-, rfl⟩ | ⟨-, pay, -, rfl⟩ := execPktRaw_next h <;> rfl

/-- Every command keeps the invariants of R43. -/
theorem exec_keeps_specInv {i : Instr} (hs : s.SpecInv) (h : exec i s = .next t) : t.SpecInv := by
  cases i with
  | nop => cases h; exact hs.congr rfl
  | crcInit => cases h; exact hs.congr rfl
  | crcByte b => cases h; exact hs.congr rfl
  | fnClear => exact execFnClear_keeps_specInv hs h
  | fnPush b => exact execFnPush_keeps_specInv hs h
  | hdrBuild => exact execHdrBuild_keeps_specInv hs h
  | plan => exact execPlan_keeps_specInv hs h
  | frameInfo index => exact hs.congr (execFrameInfo_specPart h)
  | pktBuild index => exact hs.congr (execPktBuild_specPart h)
  | pktRaw role => exact hs.congr (execPktRaw_specPart h)
  | softReset => cases h; exact reset_specInv.congr rfl

/-- A DATA_LEN write keeps the invariants of R43 by dropping the plan and the header (10_state.md R20). -/
theorem setDataLen_keeps_specInv (v : BitVec 32) (hs : s.SpecInv) : (setDataLen v s).SpecInv :=
  ⟨planInv_of_none rfl, headerInv_of_invalid rfl, nameInv_congr rfl rfl hs.name⟩

/-- Of the registers only DATA_LEN is a field the invariants read. -/
theorem writeReg_specPart {r : Reg} (v : BitVec 32) (s : State) (h : r ≠ .dataLen) :
    (writeReg v s r).specPart = s.specPart := by
  cases r with
  | dataLen => exact absurd rfl h
  | _ => rfl

theorem writeReg_keeps_specInv (r : Reg) (v : BitVec 32) (hs : s.SpecInv) : (writeReg v s r).SpecInv := by
  by_cases hr : r = .dataLen
  · subst hr; exact setDataLen_keeps_specInv v hs
  · exact hs.congr (writeReg_specPart v s hr)

theorem hostWrite_keeps_specInv {a : Addr} {size : Nat} {v : BitVec 32} (hs : s.SpecInv)
    (h : hostWrite a size v s = .ok t) : t.SpecInv := by
  obtain ⟨-, rfl | ⟨-, r, -, rfl⟩ | ⟨-, rfl⟩⟩ := hostWrite_ok h
  · exact hs
  · exact writeReg_keeps_specInv r v hs
  · exact hs.congr rfl

/-- Every action of the host keeps the invariants of R43. -/
theorem hostStep_keeps_specInv (hs : s.SpecInv) (h : hostStep s = .next t) : t.SpecInv := by
  obtain ⟨-, rfl⟩ | ⟨_, _, _, _, -, -, rfl⟩ | ⟨_, _, _, rest, -, hw⟩ | ⟨_, -, ⟨-, rfl⟩ | ⟨-, rfl⟩⟩ | ⟨_, -, rfl⟩ :=
    hostStep_next h
  · exact hs
  · exact hs.congr rfl
  · have hrest : ({ s with hostQueue := rest } : State).SpecInv := hs.congr rfl
    exact hostWrite_keeps_specInv hrest hw
  · exact hs
  · exact hs.congr rfl
  · exact reset_specInv.congr rfl

/-- Every step of either agent keeps the invariants of R43. -/
theorem step_keeps_specInv (hs : s.SpecInv) (h : step s = .next t) : t.SpecInv := by
  have htaken : (takeCommand s).SpecInv := hs.congr rfl
  obtain ⟨_, _, -, -, -, hexec⟩ | ⟨_, _, -, -, -, rfl⟩ | ⟨-, hhost⟩ := step_next h
  · exact exec_keeps_specInv htaken hexec
  · exact htaken.congr rfl
  · exact hostStep_keeps_specInv hs hhost

end invariants

/-! The obligations. -/

/-- Settles O55: the engine and the host each keep the invariants, `step_keeps_specInv`. -/
theorem stepKeepsSpecInvariants : Obligations.StepKeepsSpecInvariants := by
  intro s t hplan hheader hname hstep
  have ht : t.SpecInv := step_keeps_specInv ⟨hplan, hheader, hname⟩ hstep
  exact ⟨ht.plan, ht.header, ht.name⟩

/-- A 16-bit value read as a register word: the value below, 0 above (10_state.md R15). -/
theorem setWidth_halves (x : BitVec 16) :
    (x.setWidth 32).extractLsb' 0 16 = x ∧ (x.setWidth 32).extractLsb' 16 16 = 0#16 := by
  constructor
  · ext i hi; simp [show i < 32 by omega, BitVec.getLsbD_eq_getElem hi]
  · ext i hi; simp

/-- The low half of CRC_OUT is the complement of CRC_STATE, and its upper half is 0 (10_state.md R22). -/
theorem readReg_crcOut_halves (s : State) :
    (readReg s .crcOut).extractLsb' 0 16 = (readReg s .crcState).extractLsb' 0 16 ^^^ 0xFFFF ∧
    (readReg s .crcOut).extractLsb' 16 16 = 0#16 := by
  obtain ⟨hlow, hhigh⟩ := setWidth_halves (s.crcState ^^^ Config.crcXorOut)
  obtain ⟨hstate, -⟩ := setWidth_halves s.crcState
  refine ⟨?_, hhigh⟩
  calc (readReg s .crcOut).extractLsb' 0 16
      _ = s.crcState ^^^ 0xFFFF := hlow
      _ = (readReg s .crcState).extractLsb' 0 16 ^^^ 0xFFFF := congrArg (· ^^^ 0xFFFF) hstate.symm

/-- Settles O39: each host read goes through `hostRead_register`, ID's write through `hostWrite_register`. -/
theorem registerMapReads : Obligations.RegisterMapReads := by
  refine ⟨fun s v => ⟨rfl, hostWrite_register .id v⟩, readReg_crcOut_halves, by decide, fun s h => ?_⟩
  have hread (r : Reg) : hostRead r.offset 4 s = .ok (.word (readReg s r)) := hostRead_register r h
  exact ⟨hread .id, hread .cmd, hread .status, hread .dataLen, hread .crcState, hread .crcOut, hread .fnLen, hread .fnCrc,
    hread .planMode, hread .frameCount, hread .passCount, hread .lastDataLen, hread .frmIndex, hread .frmRole,
    hread .frmDataOff, hread .frmDataLen, hread .frmPayloadLen, hread .rawOff, hread .rawLen, hread .pktInfo⟩

/-- An admitted write to DATA_LEN is `setDataLen` on a block that is not busy (10_state.md R20). -/
theorem hostWrite_dataLen_ok {s t : State} {v : BitVec 32} (h : hostWrite Reg.dataLen.offset 4 v s = .ok t) :
    s.busy = false ∧ t = setDataLen v s := by
  have hb : s.busy = false := not_busy_of_hostWrite_ok h
  rw [hostWrite_register .dataLen v hb] at h
  cases h
  exact ⟨hb, rfl⟩

/-- Settles O42: the write is `setDataLen`, and HDR_BUILD and PLAN both check the length it leaves. -/
theorem dataLenWriteInvalidates : Obligations.DataLenWriteInvalidates := by
  refine ⟨fun s v => hostWrite_register .dataLen v, fun s t v h => ?_, rfl⟩
  obtain ⟨hb, rfl⟩ := hostWrite_dataLen_ok h
  have hidle : (setDataLen v s).busy = false := (setDataLen_busy v s).trans hb
  refine ⟨hostRead_register .dataLen hidle, fun hv => ?_⟩
  have hlarge : Config.sizeMax < (setDataLen v s).fileLen := hv
  exact ⟨execPlan_of_oversized hlarge, execHdrBuild_of_oversized hlarge⟩

end Sys2Proof.Machine
end

-- ==== Host port family (20_memory.md): what the host's accesses are refused, read and store ====
section
/-! The obligations of 20_memory.md about the host port: which accesses are refused (R46 to R49), the byte lanes (R50), reserved
space (R52), the three windows (R53 to R55) and side effects (R56). -/

namespace Sys2Proof.Machine

/-! The regions of the address map (20_memory.md R45). -/

section regions
variable {a : Addr}

theorem regionOf_eq_reg_iff : regionOf a = .reg ↔ a.toNat < 0x100 := by
  unfold regionOf; split_ifs <;> simp_all

theorem regionOf_pktbuf (hlo : 0x100 ≤ a.toNat) (hhi : a.toNat < 0x200) : regionOf a = .pktbuf := by
  simp [regionOf, Nat.not_lt.2 hlo, hhi]

theorem regionOf_hdrbuf (hlo : 0x200 ≤ a.toNat) (hhi : a.toNat < 0x240) : regionOf a = .hdrbuf := by
  simp [regionOf, show ¬ a.toNat < 0x100 by omega, Nat.not_lt.2 hlo, hhi]

theorem regionOf_reserved (hlo : 0x240 ≤ a.toNat) (hhi : a.toNat < 0x200000) : regionOf a = .reserved := by
  simp [regionOf, show ¬ a.toNat < 0x100 by omega, show ¬ a.toNat < 0x200 by omega, Nat.not_lt.2 hlo, hhi]

theorem regionOf_src (hlo : 0x200000 ≤ a.toNat) : regionOf a = .src := by
  simp [regionOf, show ¬ a.toNat < 0x100 by omega, show ¬ a.toNat < 0x200 by omega, show ¬ a.toNat < 0x240 by omega,
    Nat.not_lt.2 hlo]

theorem le_of_regionOf_src (h : regionOf a = .src) : 0x200000 ≤ a.toNat := by
  unfold regionOf at h
  split_ifs at h
  omega

/-- The four bytes of an aligned word have the addresses after its own: none wraps around. -/
theorem toNat_add_lane {j : Nat} (ha : a.toNat % 4 = 0) (hj : j < 4) : (a + BitVec.ofNat 22 j).toNat = a.toNat + j := by
  have hlt : a.toNat < 4194304 := a.isLt
  rw [BitVec.toNat_add, BitVec.toNat_ofNat]
  omega

end regions

/-! Byte lanes (20_memory.md R50). -/

theorem joinLanes_getLsbD (b0 b1 b2 b3 : BitVec 8) (i : Nat) :
    (joinLanes b0 b1 b2 b3).getLsbD i =
      if i < 8 then b0.getLsbD i else if i < 16 then b1.getLsbD (i - 8)
      else if i < 24 then b2.getLsbD (i - 16) else b3.getLsbD (i - 24) := by
  change BitVec.getLsbD (w := 8 + 8 + 8 + 8) (b3 ++ b2 ++ b1 ++ b0) i = _
  simp only [BitVec.getLsbD_append]
  grind

theorem lane_getLsbD (v : BitVec 32) (j i : Nat) : (lane v j).getLsbD i = (decide (i < 8) && v.getLsbD (8 * j + i)) :=
  BitVec.getLsbD_extractLsb' (8 * j) 8 v i

/-- Four bytes join to `v` exactly when they are its lanes. -/
theorem joinLanes_eq_iff {b0 b1 b2 b3 : BitVec 8} {v : BitVec 32} :
    joinLanes b0 b1 b2 b3 = v ↔ b0 = lane v 0 ∧ b1 = lane v 1 ∧ b2 = lane v 2 ∧ b3 = lane v 3 := by
  constructor
  · rintro rfl
    refine ⟨?_, ?_, ?_, ?_⟩ <;>
    · refine BitVec.eq_of_getLsbD_eq fun i hi => ?_
      simp only [lane_getLsbD, joinLanes_getLsbD]
      grind
  · rintro ⟨rfl, rfl, rfl, rfl⟩
    refine BitVec.eq_of_getLsbD_eq fun i hi => ?_
    simp only [joinLanes_getLsbD, lane_getLsbD]
    grind

/-- Joining lanes is the shifted OR of the zero-extended bytes. -/
theorem joinLanes_eq_shifted_or (b0 b1 b2 b3 : BitVec 8) :
    joinLanes b0 b1 b2 b3 =
      b0.setWidth 32 ||| b1.setWidth 32 <<< 8 ||| b2.setWidth 32 <<< 16 ||| b3.setWidth 32 <<< 24 := by
  refine BitVec.eq_of_getLsbD_eq fun i hi => ?_
  have hout (b : BitVec 8) (k : Nat) (hk : 8 ≤ k) : b.getLsbD k = false := BitVec.getLsbD_of_ge b k hk
  simp only [joinLanes_getLsbD, BitVec.getLsbD_or, BitVec.getLsbD_shiftLeft, BitVec.getLsbD_setWidth]
  grind

/-- A fact about the four lanes, written out. -/
theorem forall_lane_iff {p : Nat → Prop} : (∀ j, j < 4 → p j) ↔ p 0 ∧ p 1 ∧ p 2 ∧ p 3 := by
  refine ⟨fun h => ⟨h 0 (by omega), h 1 (by omega), h 2 (by omega), h 3 (by omega)⟩, ?_⟩
  rintro ⟨h0, h1, h2, h3⟩ (_ | _ | _ | _ | j) hj
  · exact h0
  · exact h1
  · exact h2
  · exact h3
  · omega

theorem lane_joinLanes (f : Nat → BitVec 8) :
    ∀ j, j < 4 → lane (joinLanes (f 0) (f 1) (f 2) (f 3)) j = f j := by
  obtain ⟨h0, h1, h2, h3⟩ := joinLanes_eq_iff.1 (rfl : joinLanes (f 0) (f 1) (f 2) (f 3) = _)
  exact forall_lane_iff.2 ⟨h0.symm, h1.symm, h2.symm, h3.symm⟩

section bytes
variable {s : State} {a : Addr}

/-! The bytes behind the addresses outside REG (20_memory.md R52 to R55). -/

theorem windowByte_pktbuf (hlo : 0x100 ≤ a.toNat) (hhi : a.toNat < 0x200) :
    windowByte a s = some (s.pktbuf[a.toNat - 0x100]?.getD 0) := by
  simp [windowByte, regionOf_pktbuf hlo hhi]

theorem windowByte_hdrbuf (hlo : 0x200 ≤ a.toNat) (hhi : a.toNat < 0x240) :
    windowByte a s = some (s.hdrbuf[a.toNat - 0x200]?.getD 0) := by
  simp [windowByte, regionOf_hdrbuf hlo hhi]

theorem windowByte_reserved (hlo : 0x240 ≤ a.toNat) (hhi : a.toNat < 0x200000) : windowByte a s = some 0 := by
  simp [windowByte, regionOf_reserved hlo hhi]

theorem windowByte_src (hlo : 0x200000 ≤ a.toNat) : windowByte a s = s.src.read (a.toNat - 0x200000) := by
  simp only [windowByte, regionOf_src hlo]
  rfl

/-- Only an unwritten SRC byte has no value (60_exceptions.md R107). -/
theorem windowByte_eq_none (h : windowByte a s = none) :
    0x200000 ≤ a.toNat ∧ s.src.read (a.toNat - 0x200000) = none := by
  have hsrc : regionOf a = .src := by
    unfold windowByte at h
    split at h <;> simp_all
  have hlo : 0x200000 ≤ a.toNat := le_of_regionOf_src hsrc
  exact ⟨hlo, windowByte_src hlo ▸ h⟩

/-- A word is read exactly when each of its bytes is the lane of its place (20_memory.md R50). -/
theorem windowWord_eq_some_iff {v : BitVec 32} :
    windowWord a s = some v ↔ ∀ j, j < 4 → windowByte (a + BitVec.ofNat 22 j) s = some (lane v j) := by
  rw [forall_lane_iff, show a + BitVec.ofNat 22 0 = a from BitVec.add_zero a]
  change _ ↔ windowByte a s = some (lane v 0) ∧ windowByte (a + 1) s = some (lane v 1) ∧
    windowByte (a + 2) s = some (lane v 2) ∧ windowByte (a + 3) s = some (lane v 3)
  unfold windowWord
  split
  · rename_i h0 h1 h2 h3
    simp only [h0, h1, h2, h3, Option.some.injEq, joinLanes_eq_iff]
  · rename_i hnot
    constructor
    · intro h; cases h
    · rintro ⟨h0, h1, h2, h3⟩
      exact (hnot _ _ _ _ h0 h1 h2 h3).elim

/-- A word whose bytes are known is those bytes, joined. -/
theorem windowWord_of_bytes {f : Nat → BitVec 8} (h : ∀ j, j < 4 → windowByte (a + BitVec.ofNat 22 j) s = some (f j)) :
    windowWord a s = some (joinLanes (f 0) (f 1) (f 2) (f 3)) :=
  windowWord_eq_some_iff.2 fun j hj => by rw [h j hj, lane_joinLanes f j hj]

/-- A word is not read exactly when one of its bytes has no value (20_memory.md R55). -/
theorem windowWord_eq_none_iff :
    windowWord a s = none ↔ ∃ j, j < 4 ∧ windowByte (a + BitVec.ofNat 22 j) s = none := by
  constructor
  · intro h
    by_contra hall
    have hbytes (j : Nat) (hj : j < 4) : windowByte (a + BitVec.ofNat 22 j) s =
        some ((windowByte (a + BitVec.ofNat 22 j) s).getD 0) := by
      cases hb : windowByte (a + BitVec.ofNat 22 j) s with
      | none => exact (hall ⟨j, hj, hb⟩).elim
      | some b => rfl
    cases h.symm.trans (windowWord_of_bytes hbytes)
  · rintro ⟨j, hj, hnone⟩
    refine Option.eq_none_iff_forall_ne_some.2 fun v hv => ?_
    cases hnone.symm.trans (windowWord_eq_some_iff.1 hv j hj)

end bytes

/-! Which accesses are refused (20_memory.md R46 to R49, 60_exceptions.md R106). -/

section refusals
variable {s t : State} {a : Addr} {size : Nat} {v : BitVec 32} {f : Fault}

/-- Of the state a refusal depends on BUSY alone. -/
theorem hostFault_congr (isRead : Bool) (a : Addr) (size : Nat) (h : t.busy = s.busy) :
    hostFault isRead a size t = hostFault isRead a size s := by simp [hostFault, h]

theorem hostFault_byte {isRead : Bool} (hb : s.busy = false) (ha : 0x100 ≤ a.toNat) :
    hostFault isRead a 1 s = none :=
  hostFault_eq_none_iff.2 ⟨by simp [hb], .inl rfl, by simp, fun _ hreg => by have := regionOf_eq_reg_iff.1 hreg; omega⟩

theorem hostFault_word {isRead : Bool} (hb : s.busy = false) (ha : a.toNat % 4 = 0) :
    hostFault isRead a 4 s = none :=
  hostFault_eq_none_iff.2 ⟨by simp [hb], .inr rfl, fun _ => ha, by simp⟩

theorem hostFault_regByte {isRead : Bool} (hb : s.busy = false) (ha : a.toNat < 0x100) :
    hostFault isRead a 1 s = some .regByteAccess := by
  simp [hostFault, hb, regionOf_eq_reg_iff.2 ha]

theorem hostFault_misaligned {isRead : Bool} (hb : s.busy = false) (ha : a.toNat % 4 ≠ 0) :
    hostFault isRead a 4 s = some .misaligned := by
  simp [hostFault, hb, ha]

theorem isStatusRead_iff : isStatusRead true a size = true ↔ size = 4 ∧ a = 0x000008 := by
  simp [isStatusRead, Reg.offset]

theorem isStatusRead_write : isStatusRead false a size = false := rfl

theorem hostRead_of_fault (h : hostFault true a size s = some f) : hostRead a size s = .error f := by
  simp [hostRead, h]

theorem hostWrite_of_fault (h : hostFault false a size s = some f) : hostWrite a size v s = .error f := by
  simp [hostWrite, h]

end refusals

/-! What an admitted access answers (20_memory.md R46 to R56). -/

section answers
variable {s : State} {a : Addr} {size : Nat} {v : BitVec 32}

theorem hostRead_reg (hf : hostFault true a size s = none) (ha : a.toNat < 0x100) :
    hostRead a size s = .ok (.word (readRegAt a s)) := by
  simp [hostRead, hf, regionOf_eq_reg_iff.2 ha]

theorem hostRead_byte (hb : s.busy = false) (ha : 0x100 ≤ a.toNat) :
    hostRead a 1 s = (windowByte a s).elim (.error .unwrittenSrcRead) (fun b => .ok (.byte b)) := by
  have hreg : regionOf a ≠ .reg := fun h => by have := regionOf_eq_reg_iff.1 h; omega
  cases hw : windowByte a s <;> simp [hostRead, hostFault_byte hb ha, hreg, hw]

theorem hostRead_word (hb : s.busy = false) (ha : 0x100 ≤ a.toNat) (hal : a.toNat % 4 = 0) :
    hostRead a 4 s = (windowWord a s).elim (.error .unwrittenSrcRead) (fun w => .ok (.word w)) := by
  have hreg : regionOf a ≠ .reg := fun h => by have := regionOf_eq_reg_iff.1 h; omega
  cases hw : windowWord a s <;> simp [hostRead, hostFault_word hb hal, hreg, hw]

theorem hostRead_byte_eq_ok_iff (hb : s.busy = false) (ha : 0x100 ≤ a.toNat) {b : BitVec 8} :
    hostRead a 1 s = .ok (.byte b) ↔ windowByte a s = some b := by
  rw [hostRead_byte hb ha]; cases windowByte a s <;> simp

/-- A written SRC byte is read (20_memory.md R55). -/
theorem hostRead_byte_src (hb : s.busy = false) (ha : 0x200000 ≤ a.toNat) {b : BitVec 8}
    (h : s.src.read (a.toNat - 0x200000) = some b) : hostRead a 1 s = .ok (.byte b) :=
  (hostRead_byte_eq_ok_iff hb (by omega)).2 ((windowByte_src ha).trans h)

theorem hostRead_byte_withSrc {m : Memory} (hb : s.busy = false) (ha : 0x200000 ≤ a.toNat) {b : BitVec 8}
    (h : m.read (a.toNat - 0x200000) = some b) : hostRead a 1 { s with src := m } = .ok (.byte b) :=
  hostRead_byte_src (s := { s with src := m }) hb ha h

theorem hostRead_word_eq_ok_iff (hb : s.busy = false) (ha : 0x100 ≤ a.toNat) (hal : a.toNat % 4 = 0) :
    hostRead a 4 s = .ok (.word v) ↔ windowWord a s = some v := by
  rw [hostRead_word hb ha hal]; cases windowWord a s <;> simp

/-- A word whose bytes are known is read as them, joined (20_memory.md R50). -/
theorem hostRead_word_of_bytes (hb : s.busy = false) (ha : 0x100 ≤ a.toNat) (hal : a.toNat % 4 = 0) {f : Nat → BitVec 8}
    (h : ∀ j, j < 4 → windowByte (a + BitVec.ofNat 22 j) s = some (f j)) :
    hostRead a 4 s = .ok (.word (joinLanes (f 0) (f 1) (f 2) (f 3))) :=
  (hostRead_word_eq_ok_iff hb ha hal).2 (windowWord_of_bytes h)

theorem exists_hostRead_word (hb : s.busy = false) (ha : 0x100 ≤ a.toNat) (hal : a.toNat % 4 = 0) {f : Nat → BitVec 8}
    (h : ∀ j, j < 4 → windowByte (a + BitVec.ofNat 22 j) s = some (f j)) :
    ∃ w, hostRead a 4 s = .ok (.word w) ∧ ∀ j, j < 4 → w.extractLsb' (8 * j) 8 = f j :=
  ⟨_, hostRead_word_of_bytes hb ha hal h, lane_joinLanes f⟩

/-- Outside REG and SRC a write is ignored (20_memory.md R52 to R54). -/
theorem hostWrite_ignored (hf : hostFault false a size s = none) (hlo : 0x100 ≤ a.toNat) (hhi : a.toNat < 0x200000) :
    hostWrite a size v s = .ok s := by
  have hmap : regionOf a = .pktbuf ∨ regionOf a = .hdrbuf ∨ regionOf a = .reserved := by
    rcases Nat.lt_or_ge a.toNat 0x200 with h | h
    · exact .inl (regionOf_pktbuf hlo h)
    · rcases Nat.lt_or_ge a.toNat 0x240 with h' | h'
      · exact .inr (.inl (regionOf_hdrbuf h h'))
      · exact .inr (.inr (regionOf_reserved h' hhi))
  rcases hmap with h | h | h <;> simp [hostWrite, hf, h]

/-- A write to SRC stores its bytes and nothing else (20_memory.md R55). -/
theorem hostWrite_src (hf : hostFault false a size s = none) (ha : 0x200000 ≤ a.toNat) :
    hostWrite a size v s = .ok { s with src := writeSrc (a.toNat - 0x200000) size v s.src } := by
  simp only [hostWrite, hf, regionOf_src ha]
  rfl

theorem hostWrite_reg (hf : hostFault false a size s = none) {r : Reg} (hr : Reg.ofOffset a = some r) (ha : a.toNat < 0x100) :
    hostWrite a size v s = .ok (writeReg v s r) := by
  simp [hostWrite, hf, regionOf_eq_reg_iff.2 ha, hr]

theorem hostWrite_reg_reserved (hf : hostFault false a size s = none) (hr : Reg.ofOffset a = none) (ha : a.toNat < 0x100) :
    hostWrite a size v s = .ok s := by
  simp [hostWrite, hf, regionOf_eq_reg_iff.2 ha, hr]

/-- A write no rule refuses is admitted. -/
theorem exists_hostWrite_ok (hf : hostFault false a size s = none) : ∃ t, hostWrite a size v s = .ok t := by
  unfold hostWrite
  rw [hf]
  cases regionOf a with
  | reg => cases Reg.ofOffset a <;> exact ⟨_, rfl⟩
  | pktbuf => exact ⟨_, rfl⟩
  | hdrbuf => exact ⟨_, rfl⟩
  | reserved => exact ⟨_, rfl⟩
  | src => exact ⟨_, rfl⟩

/-- A write fails with the fault it is refused with, and with no other. -/
theorem hostWrite_eq_error_iff {f : Fault} : hostWrite a size v s = .error f ↔ hostFault false a size s = some f := by
  refine ⟨fun h => ?_, hostWrite_of_fault⟩
  cases hf : hostFault false a size s with
  | none =>
    obtain ⟨t, ht⟩ := exists_hostWrite_ok (v := v) hf
    cases h.symm.trans ht
  | some g =>
    cases h.symm.trans (hostWrite_of_fault hf)
    rfl

theorem exists_hostWrite_error_iff :
    (∃ f, hostWrite a size v s = .error f) ↔
      (size ≠ 1 ∧ size ≠ 4) ∨ (size = 1 ∧ a.toNat < 0x100) ∨ (size = 4 ∧ a.toNat % 4 ≠ 0) ∨ s.busy = true := by
  have hadmitted := hostFault_eq_none_iff (isRead := false) (a := a) (size := size) (s := s)
  simp only [isStatusRead_write, Bool.false_eq_true, ne_eq, regionOf_eq_reg_iff] at hadmitted
  simp only [hostWrite_eq_error_iff, ← Option.ne_none_iff_exists', ne_eq, hadmitted]
  have hsize : size = 1 → size ≠ 4 := by omega
  tauto

/-- A read that some rule refuses fails. -/
theorem exists_hostRead_error (h : (size ≠ 1 ∧ size ≠ 4) ∨ (size = 1 ∧ a.toNat < 0x100) ∨ (size = 4 ∧ a.toNat % 4 ≠ 0) ∨
    (s.busy = true ∧ ¬ (size = 4 ∧ a = 0x000008))) : ∃ f, hostRead a size s = .error f := by
  have hrefused : hostFault true a size s ≠ none := by
    rw [ne_eq, hostFault_eq_none_iff, isStatusRead_iff, ne_eq, regionOf_eq_reg_iff]
    tauto
  obtain ⟨f, hf⟩ := Option.ne_none_iff_exists'.1 hrefused
  exact ⟨f, hostRead_of_fault hf⟩

/-- Outside REG no read is admitted while BUSY (70_reset_and_hazards.md R121). -/
theorem not_busy_of_read_admitted (hf : hostFault true a size s = none) (ha : 0x100 ≤ a.toNat) : s.busy = false := by
  obtain ⟨hbusy, -⟩ := hostFault_eq_none_iff.1 hf
  cases hb : s.busy with
  | false => rfl
  | true =>
    obtain ⟨-, rfl⟩ := isStatusRead_iff.1 (hbusy hb)
    exact absurd ha (by decide)

/-- A read that no rule refuses is admitted unless it meets an unwritten SRC byte (60_exceptions.md R106, R107). -/
theorem hostRead_of_admitted (hf : hostFault true a size s = none) :
    (∃ x, hostRead a size s = .ok x) ∨
    (hostRead a size s = .error .unwrittenSrcRead ∧ 0x200000 ≤ a.toNat ∧
      ∃ j, j < size ∧ s.src.read (a.toNat - 0x200000 + j) = none) := by
  rcases Nat.lt_or_ge a.toNat 0x100 with hreg | hwin
  · exact .inl ⟨_, hostRead_reg hf hreg⟩
  have hb : s.busy = false := not_busy_of_read_admitted hf hwin
  obtain ⟨-, hsize, haligned, -⟩ := hostFault_eq_none_iff.1 hf
  rcases hsize with rfl | rfl
  · rw [hostRead_byte hb hwin]
    cases hw : windowByte a s with
    | some b => exact .inl ⟨_, rfl⟩
    | none =>
      obtain ⟨hsrc, hunwritten⟩ := windowByte_eq_none hw
      exact .inr ⟨rfl, hsrc, 0, by omega, by rwa [Nat.add_zero]⟩
  · have hal : a.toNat % 4 = 0 := haligned rfl
    rw [hostRead_word hb hwin hal]
    cases hw : windowWord a s with
    | some w => exact .inl ⟨_, rfl⟩
    | none =>
      obtain ⟨j, hj, hnone⟩ := windowWord_eq_none_iff.1 hw
      obtain ⟨hlo, hunwritten⟩ := windowByte_eq_none hnone
      rw [toNat_add_lane hal hj] at hlo hunwritten
      have hsrc : 0x200000 ≤ a.toNat := by omega
      exact .inr ⟨rfl, hsrc, j, hj, by rwa [Nat.sub_add_comm hsrc] at hunwritten⟩

end answers

/-! One host access as a step of the machine (00_scope.md R14). -/

section steps
variable {s t : State} {a : Addr} {size : Nat} {v : BitVec 32} {rest : List HostAction} {f : Fault} {x : HostValue}

theorem hostStep_read_error (hq : s.hostQueue = .read a size :: rest) (h : hostRead a size s = .error f) :
    hostStep s = .fault f := by simp [hostStep, hq, h]

theorem hostStep_read_ok (hq : s.hostQueue = .read a size :: rest) (h : hostRead a size s = .ok x) :
    hostStep s = .next (recordRead x { s with hostQueue := rest }) := by simp [hostStep, hq, h]

theorem hostStep_write_error (hq : s.hostQueue = .write a size v :: rest) (h : hostWrite a size v s = .error f) :
    hostStep s = .fault f := by
  have hf : hostFault false a size s = some f := hostWrite_eq_error_iff.1 h
  have hrest : hostWrite a size v { s with hostQueue := rest } = .error f := hostWrite_of_fault hf
  simp [hostStep, hq, hrest]

theorem hostStep_write_ok (hq : s.hostQueue = .write a size v :: rest)
    (h : hostWrite a size v { s with hostQueue := rest } = .ok t) : hostStep s = .next t := by simp [hostStep, hq, h]

/-- A read that goes on recorded what it returned, for the host. -/
theorem hostStep_read_next (hq : s.hostQueue = .read a size :: rest) (h : hostStep s = .next t) :
    ∃ x, t = recordRead x { s with hostQueue := rest } := by
  cases hr : hostRead a size s with
  | ok x =>
    rw [hostStep_read_ok hq hr] at h
    cases h
    exact ⟨x, rfl⟩
  | error f =>
    rw [hostStep_read_error hq hr] at h
    cases h

/-- Recording a read changes the host's own fields alone, so the block is as before and reads as before. -/
theorem recordRead_withHostOf (x : HostValue) (rest : List HostAction) (s : State) :
    (recordRead x { s with hostQueue := rest }).withHostOf s = s := rfl

theorem hostRead_recordRead (a : Addr) (size : Nat) (x : HostValue) (rest : List HostAction) (s : State) :
    hostRead a size (recordRead x { s with hostQueue := rest }) = hostRead a size s := rfl

end steps

/-! The registers a host write reaches (10_state.md R17 to R37, 20_memory.md R52, R56). -/

section registers
variable {s : State} {a : Addr} {r : Reg} {v : BitVec 32}

theorem eq_offset_of_ofOffset (h : Reg.ofOffset a = some r) : a = r.offset := by
  have hmatch := List.find?_some h
  exact (beq_iff_eq.1 hmatch).symm

theorem ofOffset_reserved (h : 0x50 ≤ a.toNat) : Reg.ofOffset a = none := by
  cases hr : Reg.ofOffset a with
  | none => rfl
  | some r =>
    have hlt : r.offset.toNat < 0x50 := by cases r <;> decide
    rw [eq_offset_of_ofOffset hr] at h
    omega

/-- Every register but the five with a write rule ignores a write (20_memory.md R56). -/
theorem writeReg_readOnly (v : BitVec 32) (s : State) (hcmd : r ≠ .cmd) (hstatus : r ≠ .status) (hlen : r ≠ .dataLen)
    (hoff : r ≠ .rawOff) (hraw : r ≠ .rawLen) : writeReg v s r = s := by
  cases r with
  | cmd => exact absurd rfl hcmd
  | status => exact absurd rfl hstatus
  | dataLen => exact absurd rfl hlen
  | rawOff => exact absurd rfl hoff
  | rawLen => exact absurd rfl hraw
  | _ => rfl

/-- But for CMD, a register write leaves BUSY alone. -/
theorem writeReg_busy (v : BitVec 32) (s : State) (hcmd : r ≠ .cmd) : (writeReg v s r).busy = s.busy := by
  cases r with
  | cmd => exact absurd rfl hcmd
  | _ => rfl

/-- But for CMD, writing a register twice is writing it once (20_memory.md R56). -/
theorem writeReg_writeReg (v : BitVec 32) (s : State) (hcmd : r ≠ .cmd) :
    writeReg v (writeReg v s r) r = writeReg v s r := by
  cases r with
  | cmd => exact absurd rfl hcmd
  | status => simp [writeReg, writeStatus]
  | _ => rfl

end registers

/-- Storing the same bytes twice is storing them once, in a memory in canonical form (10_state.md R41). -/
theorem writeSrc_writeSrc {m : Memory} {a size : Nat} (v : BitVec 32)
    (ha : a + (if size = 1 then 1 else 4) ≤ Config.srcBytes) (hm : m.wf = true) :
    writeSrc a size v (writeSrc a size v m) = writeSrc a size v m := by
  have honce : (writeSrc a size v m).wf = true := writeSrc_wf v ha hm
  refine Memory.ext_of_wfFrom (writeSrc_wf v ha honce) honce fun x => ?_
  simp only [read_writeSrc]
  split_ifs <;> rfl

/-- An admitted access to SRC ends inside SRC. -/
theorem srcOffset_fits {a : Addr} {size : Nat} (hsize : size = 1 ∨ size = 4) (hal : size = 4 → a.toNat % 4 = 0) :
    srcOffset a + (if size = 1 then 1 else 4) ≤ Config.srcBytes := by
  have hlt : a.toNat < 4194304 := a.isLt
  unfold srcOffset Config.srcBytes
  rcases hsize with rfl | rfl
  · rw [if_pos rfl]; omega
  · rw [if_neg (by omega)]; have := hal rfl; omega

/-- An admitted write other than to CMD, made again, leaves what it left (20_memory.md R56). -/
theorem hostWrite_idempotent {s t : State} {a : Addr} {size : Nat} {v : BitVec 32} (hs : s.srcInv) (ha : a ≠ 0x04)
    (h : hostWrite a size v s = .ok t) : hostWrite a size v t = .ok t := by
  obtain ⟨hf, rfl | ⟨hreg, r, hr, rfl⟩ | ⟨hsrc, rfl⟩⟩ := hostWrite_ok h
  · exact h
  · have hcmd : r ≠ .cmd := by rintro rfl; exact ha (eq_offset_of_ofOffset hr)
    have hagain : hostFault false a size (writeReg v s r) = none :=
      (hostFault_congr false a size (writeReg_busy v s hcmd)).trans hf
    rw [hostWrite_reg hagain hr (regionOf_eq_reg_iff.1 hreg), writeReg_writeReg v s hcmd]
  · have hlo : 0x200000 ≤ a.toNat := le_of_regionOf_src hsrc
    have hagain : hostFault false a size { s with src := writeSrc (srcOffset a) size v s.src } = none := hf
    obtain ⟨-, hsize, haligned, -⟩ := hostFault_eq_none_iff.1 hf
    have hfits : srcOffset a + (if size = 1 then 1 else 4) ≤ Config.srcBytes := srcOffset_fits hsize haligned
    rw [hostWrite_src hagain hlo]
    exact congrArg (fun m => Except.ok { s with src := m }) (writeSrc_writeSrc v hfits hs)

/-! The register bits no rule names (10_state.md R15, 20_memory.md R52). -/

/-- A value of `w` bits read as a register word has no bit outside a mask that holds its width. -/
theorem setWidth_and_not_mask {w : Nat} (x : BitVec w) {m : BitVec 32} (hm : ∀ j, j < w → m.getLsbD j = true) :
    x.setWidth 32 &&& ~~~m = 0 := by
  refine BitVec.eq_of_getLsbD_eq fun i hi => ?_
  by_cases hw : i < w
  · simp [hm i hw]
  · simp [BitVec.getLsbD_of_ge x i (by omega)]

theorem status_and_not_mask (s : State) : s.status &&& ~~~0x0000FF9F#32 = 0 := by
  change (0#16 ++ s.errCode ++ BitVec.ofBool s.errSticky ++ 0#2 ++ BitVec.ofBool s.fnTrunc ++ BitVec.ofBool s.pktValid ++
      BitVec.ofBool s.planValid ++ BitVec.ofBool s.hdrValid ++ BitVec.ofBool s.busy :
      BitVec (16 + 8 + 1 + 2 + 1 + 1 + 1 + 1 + 1)) &&&
    (0xFFFF#16 ++ 0#8 ++ 0#1 ++ 3#2 ++ 0#1 ++ 0#1 ++ 0#1 ++ 0#1 ++ 0#1) = 0#(16 + 8 + 1 + 2 + 1 + 1 + 1 + 1 + 1)
  simp only [BitVec.and_append, BitVec.and_zero, BitVec.zero_and, BitVec.zero_append_zero]

theorem pktInfo_and_not_mask (p : PktInfo) : p.toWord &&& ~~~0x03FFFFFF#32 = 0 := by
  change (0#6 ++ p.role ++ p.payloadLen ++ p.index : BitVec (6 + 2 + 8 + 16)) &&& (0x3F#6 ++ 0#2 ++ 0#8 ++ 0#16) =
    0#(6 + 2 + 8 + 16)
  simp only [BitVec.and_append, BitVec.and_zero, BitVec.zero_and, BitVec.zero_append_zero]

/-- Of the written value STATUS takes bit 7 alone. -/
theorem writeReg_status_mask (v : BitVec 32) (s : State) : writeReg v s .status = writeReg (v &&& 0x80) s .status := by
  simp [writeReg, writeStatus]

/-- Of the written value RAW_OFF takes the low 21 bits alone. -/
theorem writeReg_rawOff_mask (v : BitVec 32) (s : State) :
    writeReg v s .rawOff = writeReg (v &&& 0x1FFFFF) s .rawOff := by
  have hlow : v.setWidth 21 = (v &&& 0x1FFFFF).setWidth 21 := by
    rw [BitVec.setWidth_and]
    exact BitVec.and_allOnes.symm
  simp only [writeReg, hlow]

/-- The windows past their buffers and the reserved region read 0 (20_memory.md R52). -/
theorem windowByte_pastBuffers {a : Addr} (s : State)
    (h : (0x100 + 221 ≤ a.toNat ∧ a.toNat < 0x200) ∨ (0x200 + 55 ≤ a.toNat ∧ a.toNat < 0x200000)) :
    windowByte a s = some 0 := by
  obtain ⟨hlo, hhi⟩ | ⟨hlo, hhi⟩ := h
  · rw [windowByte_pktbuf (by omega) hhi, Vector.getElem?_eq_none (by omega)]
    rfl
  · rcases Nat.lt_or_ge a.toNat 0x240 with hhdr | hres
    · rw [windowByte_hdrbuf (by omega) hhdr, Vector.getElem?_eq_none (by omega)]
      rfl
    · exact windowByte_reserved hres hhi

/-! The obligations. -/

/-- Settles O44: an access fails as `hostFault` says, and a read also on an unwritten SRC byte, `hostRead_of_admitted`. -/
theorem hostFaultsExactly : Obligations.HostFaultsExactly := by
  refine ⟨?regAccess, ?misaligned, fun s a size h => exists_hostRead_error h, ?admittedRead,
    fun s a size v _ => exists_hostWrite_error_iff, ?stepRead, ?stepWrite, ?stepWriteOk,
    fun s a size rest f => hostStep_read_error, fun s a size v rest f => hostStep_write_error⟩
  case regAccess =>
    intro s a v hb ha
    refine ⟨hostRead_of_fault (hostFault_regByte hb ha), hostWrite_of_fault (hostFault_regByte hb ha), fun hal => ?_⟩
    exact ⟨⟨_, hostRead_reg (hostFault_word hb hal) ha⟩, exists_hostWrite_ok (hostFault_word hb hal)⟩
  case misaligned =>
    intro s a v hb ha
    exact ⟨hostWrite_of_fault (hostFault_misaligned hb ha), fun _ => hostRead_of_fault (hostFault_misaligned hb ha)⟩
  case admittedRead =>
    intro s a size haccess hbusy
    refine hostRead_of_admitted (hostFault_eq_none_iff.2 ⟨fun hb => isStatusRead_iff.2 (hbusy hb), ?_, ?_, ?_⟩)
    · omega
    · omega
    · rw [ne_eq, regionOf_eq_reg_iff]; omega
  case stepRead =>
    intro s a size rest f hp hq h
    exact (step_eq_hostStep hp).trans (hostStep_read_error hq h)
  case stepWrite =>
    intro s a size v rest f hp hq h
    exact (step_eq_hostStep hp).trans (hostStep_write_error hq h)
  case stepWriteOk =>
    intro s t a size v rest hp hq h
    exact (step_eq_hostStep hp).trans (hostStep_write_ok hq h)

/-- Settles O45: a window word is its bytes by lane, `windowWord_eq_some_iff`, and SRC stores by lane, `read_writeSrc`. -/
theorem hostLanesAreLittleEndian : Obligations.HostLanesAreLittleEndian := by
  refine ⟨?reads, ?writes, ?shifts⟩
  case reads =>
    intro s a w hb hal hwin
    rw [hostRead_word_eq_ok_iff hb (by omega) hal, windowWord_eq_some_iff]
    refine forall₂_congr fun j hj => ?_
    rw [hostRead_byte_eq_ok_iff hb (by rw [toNat_add_lane hal hj]; omega)]
    rfl
  case writes =>
    intro s a v hb hal ha
    refine ⟨_, hostWrite_src (hostFault_word hb hal) ha, fun j hj => ?_⟩
    have haddr : (a + BitVec.ofNat 22 j).toNat = a.toNat + j := toNat_add_lane hal hj
    refine hostRead_byte_withSrc hb (by omega) ?_
    rw [haddr, Nat.sub_add_comm ha, read_writeSrc,
      if_pos ⟨by omega, by simpa using hj⟩, Nat.add_sub_cancel_left]
    rfl
  case shifts =>
    intro s k hb hk
    have haddr : (BitVec.ofNat 22 (0x100 + 4 * k)).toNat = 0x100 + 4 * k := by
      rw [BitVec.toNat_ofNat]; omega
    have hal : (BitVec.ofNat 22 (0x100 + 4 * k)).toNat % 4 = 0 := by omega
    have hbyte (j : Nat) (hj : j < 4) : windowByte (BitVec.ofNat 22 (0x100 + 4 * k) + BitVec.ofNat 22 j) s =
        some (s.pktbuf[4 * k + j]?.getD 0) := by
      have hlane := toNat_add_lane hal hj
      rw [windowByte_pktbuf (by omega) (by omega), hlane, haddr, show 0x100 + 4 * k + j - 0x100 = 4 * k + j by omega]
    have hread := hostRead_word_of_bytes hb (by omega) hal hbyte
    rwa [joinLanes_eq_shifted_or] at hread

/-- Settles O46: no register stands at a reserved offset, past the buffers every byte is 0, and each register's word is
its field zero-extended. -/
theorem reservedSpaceReadsZero : Obligations.ReservedSpaceReadsZero := by
  refine ⟨?registers, ?bytes, ?words, ?bits, fun s v => ⟨writeReg_status_mask v s, writeReg_rawOff_mask v s⟩⟩
  case registers =>
    intro s a v hb hal hlo hhi
    have hnone : Reg.ofOffset a = none := ofOffset_reserved hlo
    refine ⟨?_, hostWrite_reg_reserved (hostFault_word hb hal) hnone hhi⟩
    simp [hostRead_reg (hostFault_word hb hal) hhi, readRegAt, hnone]
  case bytes =>
    intro s a v hb ha
    have hbyte : windowByte a s = some 0 := windowByte_pastBuffers s (by omega)
    exact ⟨(hostRead_byte_eq_ok_iff hb (by omega)).2 hbyte,
      hostWrite_ignored (hostFault_byte hb (by omega)) (by omega) (by omega)⟩
  case words =>
    intro s a v hb hal ha
    have hbyte (j : Nat) (hj : j < 4) : windowByte (a + BitVec.ofNat 22 j) s = some 0 :=
      windowByte_pastBuffers s (by rw [toNat_add_lane hal hj]; omega)
    exact ⟨hostRead_word_of_bytes hb (by omega) hal hbyte,
      hostWrite_ignored (hostFault_word hb hal) (by omega) (by omega)⟩
  case bits =>
    intro s
    simp only [List.forall_mem_cons]
    exact ⟨status_and_not_mask s,
      setWidth_and_not_mask _ (by decide), setWidth_and_not_mask _ (by decide),
      setWidth_and_not_mask _ (by decide), setWidth_and_not_mask _ (by decide),
      setWidth_and_not_mask _ (by decide), setWidth_and_not_mask _ (by decide),
      setWidth_and_not_mask _ (by decide), setWidth_and_not_mask _ (by decide),
      setWidth_and_not_mask _ (by decide), setWidth_and_not_mask _ (by decide),
      setWidth_and_not_mask _ (by decide), setWidth_and_not_mask _ (by decide),
      setWidth_and_not_mask _ (by decide), setWidth_and_not_mask _ (by decide),
      pktInfo_and_not_mask s.pktInfo, List.forall_mem_nil _⟩

/-- Settles O47: the bytes of both windows are those of the buffers, whatever the flags, and outside REG and SRC a write is
ignored. -/
theorem bufferWindowsAreReadOnly : Obligations.BufferWindowsAreReadOnly := by
  refine ⟨?pktbuf, ?hdrbuf, ?reset⟩
  case pktbuf =>
    intro s a v hb hlo hhi
    refine ⟨(hostRead_byte_eq_ok_iff hb hlo).2 (windowByte_pktbuf hlo hhi),
      hostWrite_ignored (hostFault_byte hb hlo) hlo (by omega), fun hal => ?_⟩
    have hbyte (j : Nat) (hj : j < 4) :
        windowByte (a + BitVec.ofNat 22 j) s = some (s.pktbuf[a.toNat - 0x100 + j]?.getD 0) := by
      have haddr := toNat_add_lane hal hj
      rw [windowByte_pktbuf (by omega) (by omega), haddr, Nat.sub_add_comm hlo]
    exact ⟨hostWrite_ignored (hostFault_word hb hal) hlo (by omega), exists_hostRead_word hb hlo hal hbyte⟩
  case hdrbuf =>
    intro s a v hb hlo hhi
    refine ⟨(hostRead_byte_eq_ok_iff hb (by omega)).2 (windowByte_hdrbuf hlo hhi),
      hostWrite_ignored (hostFault_byte hb (by omega)) (by omega) (by omega), fun hal => ?_⟩
    have hbyte (j : Nat) (hj : j < 4) :
        windowByte (a + BitVec.ofNat 22 j) s = some (s.hdrbuf[a.toNat - 0x200 + j]?.getD 0) := by
      have haddr := toNat_add_lane hal hj
      rw [windowByte_hdrbuf (by omega) (by omega), haddr, Nat.sub_add_comm hlo]
    exact ⟨hostWrite_ignored (hostFault_word hb hal) (by omega) (by omega), 
      exists_hostRead_word hb (by omega) hal hbyte⟩
  case reset =>
    intro a hlo hhi
    rw [hostRead_byte_eq_ok_iff rfl hlo, windowByte_pktbuf hlo hhi]
    have hzero : State.reset.pktbuf = Vector.replicate 221 0 := rfl
    rw [hzero, Vector.getElem?_replicate]
    split_ifs <;> rfl

/-- Settles O48: a write to SRC is `writeSrc` alone, and a read finds what `Memory.read` gives. -/
theorem srcWindowStoresBytes : Obligations.SrcWindowStoresBytes := by
  refine ⟨?stores, ?readsBack, ?reads⟩
  case stores =>
    intro s a v size hb ha hsize
    have hf : hostFault false a size s = none := by
      obtain rfl | ⟨rfl, hal⟩ := hsize
      · exact hostFault_byte hb (by omega)
      · exact hostFault_word hb hal
    have hwidth : (if size = 1 then 1 else 4) = size := by split_ifs <;> omega
    refine ⟨_, hostWrite_src hf ha, rfl, fun x => ?_⟩
    rw [read_writeSrc, hwidth]
    rfl
  case readsBack =>
    intro s t a v ha h
    have hb : s.busy = false := not_busy_of_hostWrite_ok h
    rw [hostWrite_src (hostFault_byte hb (by omega)) ha] at h
    cases h
    refine hostRead_byte_withSrc hb ha ?_
    rw [read_writeSrc, if_pos (by simp), Nat.sub_self]
    rfl
  case reads =>
    intro s a hb ha
    have hwin : 0x100 ≤ a.toNat := by omega
    refine ⟨fun h => ?_, fun b h => hostRead_byte_src hb ha h, fun hal ⟨j, hj, h⟩ => ?_⟩
    · rw [hostRead_byte hb hwin, windowByte_src ha, h]
      rfl
    · have haddr := toNat_add_lane hal hj
      have hnone : windowWord a s = none := windowWord_eq_none_iff.2
        ⟨j, hj, by rw [windowByte_src (by omega), haddr, Nat.sub_add_comm ha, h]⟩
      rw [hostRead_word hb hwin hal, hnone]
      rfl

/-- Settles O49: a read's step is `recordRead`, which the block does not see; a register write is `writeReg`, and a repeated
write is `hostWrite_idempotent`. -/
theorem readsHaveNoSideEffects : Obligations.ReadsHaveNoSideEffects := by
  refine ⟨?readStep, ?readRecorded, ?readOnly, ?effects, fun s t a size v hs ha h => hostWrite_idempotent hs ha h⟩
  case readStep =>
    intro s t a size rest hq h
    obtain ⟨x, rfl⟩ := hostStep_read_next hq h
    exact ⟨recordRead_withHostOf x rest s, hostRead_recordRead a size x rest s⟩
  case readRecorded =>
    intro s a size x rest hp hq h
    exact ⟨_, (step_eq_hostStep hp).trans (hostStep_read_ok hq h), rfl, rfl, recordRead_withHostOf x rest s⟩
  case readOnly =>
    intro s a v hb ha hal hcmd hstatus hlen hoff hraw
    have hf : hostFault false a 4 s = none := hostFault_word hb hal
    cases hr : Reg.ofOffset a with
    | none => exact hostWrite_reg_reserved hf hr ha
    | some r =>
      obtain rfl := eq_offset_of_ofOffset hr
      rw [hostWrite_reg hf hr ha, writeReg_readOnly v s (ne_of_apply_ne Reg.offset hcmd) (ne_of_apply_ne Reg.offset hstatus)
        (ne_of_apply_ne Reg.offset hlen) (ne_of_apply_ne Reg.offset hoff) (ne_of_apply_ne Reg.offset hraw)]
  case effects =>
    intro s t v
    have hwritten (r : Reg) (h : hostWrite r.offset 4 v s = .ok t) : t = writeReg v s r := by
      rw [hostWrite_register r v (not_busy_of_hostWrite_ok h)] at h
      cases h
      rfl
    refine ⟨fun h => ?_, fun h hbit => ?_, fun h => ?_, fun h => ?_, fun h => ?_⟩
    · obtain rfl := hwritten .cmd h
      exact ⟨rfl, rfl⟩
    · obtain rfl := hwritten .status h
      simp [writeReg, hbit]
    · obtain rfl := hwritten .dataLen h
      exact ⟨rfl, rfl⟩
    · obtain rfl := hwritten .rawOff h
      simp only [writeReg, BitVec.setWidth_eq_extractLsb' (show 21 ≤ 32 by omega)]
    · exact hwritten .rawLen h

end Sys2Proof.Machine
end

-- ==== Encoding family (30_encoding.md): the opcode map and the words it rejects ====
section
/-! The obligations of 30_encoding.md about the decoder: which words each row of the opcode map takes (R65, R66), and what becomes
of a word with a reserved ARG bit (R67) or an unassigned opcode (R68). -/

namespace Sys2Proof

/-! The opcode map (30_encoding.md R65). -/

theorem Opcode.mem_all (o : Opcode) : o ∈ Opcode.all := by cases o <;> decide

@[simp] theorem Opcode.ofByte_byte (o : Opcode) : Opcode.ofByte o.byte = some o := by cases o <;> rfl

theorem Opcode.ofByte_eq_some_iff {opc : BitVec 8} {o : Opcode} : Opcode.ofByte opc = some o ↔ o.byte = opc := by
  refine ⟨fun h => ?_, fun h => h ▸ o.ofByte_byte⟩
  simpa using List.find?_some h

theorem Opcode.ofByte_eq_none_iff {opc : BitVec 8} : Opcode.ofByte opc = none ↔ ∀ o : Opcode, o.byte ≠ opc := by
  simp [Opcode.ofByte, Opcode.mem_all]

/-! The two fields of a word (30_encoding.md R64). -/

section fields
variable (opc : BitVec 8) (arg : BitVec 24) (w : BitVec 32)

@[simp] theorem opcField_append : opcField (opc ++ arg) = opc := BitVec.extractLsb'_append_eq_left

@[simp] theorem argField_append : argField (opc ++ arg) = arg := BitVec.extractLsb'_append_eq_right

theorem opcField_append_argField : opcField w ++ argField w = w :=
  BitVec.extractLsb'_append_extractLsb' (w := 8) (len := 24)

/-- An operand taken from ARG is the same bits of the word (30_encoding.md R66). -/
theorem argField_extractLsb' {len : Nat} (h : len ≤ 24) : (argField w).extractLsb' 0 len = w.extractLsb' 0 len :=
  BitVec.extractLsb'_extractLsb'_of_le (by omega)

/-- A row's mask keeps the opcode and the reserved ARG bits. -/
theorem word_and_mask (o : Opcode) : w &&& o.mask = opcField w ++ (argField w &&& ~~~o.argMask) :=
  calc w &&& o.mask = (opcField w ++ argField w) &&& (0xFF#8 ++ ~~~o.argMask) := by
        rw [opcField_append_argField]; rfl
    _ = (opcField w &&& 0xFF#8) ++ (argField w &&& ~~~o.argMask) := BitVec.and_append
    _ = opcField w ++ (argField w &&& ~~~o.argMask) := by rw [show 0xFF#8 = BitVec.allOnes 8 from rfl, BitVec.and_allOnes]

end fields

/-- A word is a legal encoding of a row exactly when it has the row's opcode and no reserved ARG bit (30_encoding.md R65). -/
theorem word_and_mask_eq_pattern_iff {w : BitVec 32} {o : Opcode} :
    w &&& o.mask = o.pattern ↔ o.byte = opcField w ∧ argField w &&& ~~~o.argMask = 0 := by
  rw [word_and_mask]
  constructor
  · intro h
    have hopc := congrArg opcField h
    have harg := congrArg argField h
    simp only [Opcode.pattern, opcField_append, argField_append] at hopc harg
    exact ⟨hopc.symm, harg⟩
  · rintro ⟨hopc, harg⟩
    rw [← hopc, harg]
    rfl

/-- A value without bits outside a mask is at most the mask. -/
theorem toNat_le_of_and_not_eq_zero {n : Nat} {x m : BitVec n} (h : x &&& ~~~m = 0) : x.toNat ≤ m.toNat := by
  have hx : x &&& m = x := by
    calc x &&& m = (x &&& m) ||| (x &&& ~~~m) := by rw [h]; simp
      _ = x := by rw [← BitVec.and_or_distrib_left, BitVec.or_not_self, BitVec.and_allOnes]
  rw [← hx, BitVec.toNat_and]
  exact Nat.and_le_right

/-! The decoder by its two checks (30_encoding.md R69). -/

section decoder
variable {w : BitVec 32} {o : Opcode}

theorem decode_of_unassigned (h : Opcode.ofByte (opcField w) = none) : decode w = .error .illegalCmd := by
  simp [decode, h]

theorem decode_of_reserved (hopc : o.byte = opcField w) (harg : argField w &&& ~~~o.argMask ≠ 0) :
    decode w = .error .badArg := by
  rw [decode, ← hopc, Opcode.ofByte_byte]
  exact if_pos harg

theorem decode_byte_append_of_reserved {arg : BitVec 24} (h : arg &&& ~~~o.argMask ≠ 0) :
    decode (o.byte ++ arg) = .error .badArg :=
  decode_of_reserved (opcField_append _ _).symm (by rwa [argField_append])

theorem decode_of_legal (h : w &&& o.mask = o.pattern) : decode w = .ok (o.instr (argField w)) := by
  obtain ⟨hopc, harg⟩ := word_and_mask_eq_pattern_iff.1 h
  rw [decode, ← hopc, Opcode.ofByte_byte]
  exact if_neg (not_not_intro harg)

/-- A word that decodes is a legal encoding of some row, and stands for that row's command. -/
theorem legal_of_decode_ok {i : Instr} (h : decode w = .ok i) :
    ∃ o : Opcode, w &&& o.mask = o.pattern ∧ i = o.instr (argField w) := by
  cases hopc : Opcode.ofByte (opcField w) with
  | none => rw [decode_of_unassigned hopc] at h; cases h
  | some o =>
    have hbyte := Opcode.ofByte_eq_some_iff.1 hopc
    by_cases harg : argField w &&& ~~~o.argMask = 0
    · have hlegal := word_and_mask_eq_pattern_iff.2 ⟨hbyte, harg⟩
      rw [decode_of_legal hlegal] at h
      cases h
      exact ⟨o, hlegal, rfl⟩
    · rw [decode_of_reserved hbyte harg] at h
      cases h

end decoder

/-- Settles O30: each row is `decode_of_legal`, with its operand read off the word, and `legal_of_decode_ok` is the converse. -/
theorem decodeFollowsOpcodeMap : Obligations.DecodeFollowsOpcodeMap := by
  intro w
  refine ⟨decode_of_legal (o := .nop), decode_of_legal (o := .crcInit), fun h => ?crcByte, decode_of_legal (o := .fnClear),
    fun h => ?fnPush, decode_of_legal (o := .hdrBuild), decode_of_legal (o := .plan), fun h => ?frameInfo, fun h => ?pktBuild,
    fun h => ?pktRaw, decode_of_legal (o := .softReset), fun i h => ?legal, fun o => ?matchAndMask⟩
  case crcByte => rw [← argField_extractLsb' w (by decide)]; exact decode_of_legal (o := .crcByte) h
  case fnPush => rw [← argField_extractLsb' w (by decide)]; exact decode_of_legal (o := .fnPush) h
  case frameInfo => rw [← argField_extractLsb' w (by decide)]; exact decode_of_legal (o := .frameInfo) h
  case pktBuild => rw [← argField_extractLsb' w (by decide)]; exact decode_of_legal (o := .pktBuild) h
  case pktRaw => rw [← argField_extractLsb' w (by decide)]; exact decode_of_legal (o := .pktRaw) h
  case legal =>
    obtain ⟨o, hlegal, -⟩ := legal_of_decode_ok h
    exact ⟨o, o.mem_all, hlegal⟩
  case matchAndMask => cases o <;> exact ⟨rfl, rfl⟩

/-- No opcode of the map lies in the four ranges of 30_encoding.md R68. -/
theorem ofByte_of_unassigned_range {opc : BitVec 8}
    (h : (0x03 ≤ opc.toNat ∧ opc.toNat ≤ 0x0F) ∨ (0x13 ≤ opc.toNat ∧ opc.toNat ≤ 0x1F) ∨
      (0x22 ≤ opc.toNat ∧ opc.toNat ≤ 0x2F) ∨ (0x32 ≤ opc.toNat ∧ opc.toNat ≤ 0xFE)) : Opcode.ofByte opc = none := by
  rw [Opcode.ofByte_eq_none_iff]
  rintro o rfl
  revert h
  cases o <;> decide

namespace Machine

/-- Settles O31: a word with an opcode of the four ranges fails the opcode check. -/
theorem unassignedOpcodesAreIllegal : Obligations.UnassignedOpcodesAreIllegal := by
  refine ⟨by decide +kernel, fun s opc arg h => ?_⟩
  have hopc : Opcode.ofByte (opcField (opc ++ arg)) = none := by
    rw [opcField_append]
    exact ofByte_of_unassigned_range h
  exact engineStep_of_error (decode_of_unassigned hopc) s

/-- Settles O32: the word fails the reserved-bit check, and so does a role above 3, the largest value of PKT_RAW's mask. -/
theorem reservedArgBitsAreBadArg : Obligations.ReservedArgBitsAreBadArg := by
  refine ⟨fun s o arg h => engineStep_of_error (decode_byte_append_of_reserved h) s,
    fun arg h => decode_byte_append_of_reserved (o := .pktRaw) fun hzero => ?_⟩
  have hle : arg.toNat ≤ 3 := toNat_le_of_and_not_eq_zero hzero
  omega

end Machine
end Sys2Proof
end

-- ==== Checksum family (40_crc.md): the CRC update, its two commands and the CRC they compute ====
section
/-! The obligations of 40_crc.md: the update by one byte (R73), CRC_INIT (R74), CRC_BYTE (R75) and the CRC of a byte sequence (R76). -/

namespace Sys2Proof

/-! What the decoder makes of a word with an assigned opcode, as a check on its ARG (30_encoding.md R67). -/

section operand
variable {o : Opcode} {arg : BitVec 24}

/-- The word of a row's opcode and an ARG is decoded by the reserved-bit check alone. -/
theorem decode_byte_append (o : Opcode) (arg : BitVec 24) :
    decode (o.byte ++ arg) = if arg &&& ~~~o.argMask = 0 then .ok (o.instr arg) else .error .badArg := by
  split
  next harg =>
    have hlegal : (o.byte ++ arg) &&& o.mask = o.pattern := by simpa [word_and_mask_eq_pattern_iff] using harg
    rw [decode_of_legal hlegal, argField_append]
  next harg => exact decode_byte_append_of_reserved harg

/-- A command without operand admits ARG 0 only. -/
theorem decode_byte_append_of_noArg (hmask : o.argMask = 0) :
    decode (o.byte ++ arg) = if arg = 0 then .ok (o.instr arg) else .error .badArg := by
  rw [decode_byte_append, hmask, show ~~~(0 : BitVec 24) = BitVec.allOnes 24 from rfl, BitVec.and_allOnes]

/-- No bit of ARG lies above a mask of the low `w` bits exactly when ARG is below `2 ^ w`. -/
theorem and_not_lowMask_eq_zero_iff {w : Nat} {m : BitVec 24} (hm : m.toNat = 2 ^ w - 1) :
    arg &&& ~~~m = 0 ↔ arg.toNat < 2 ^ w := by
  constructor
  · intro h
    have hle : arg.toNat ≤ m.toNat := toNat_le_of_and_not_eq_zero h
    have hpos : 0 < 2 ^ w := Nat.two_pow_pos w
    omega
  · intro h
    have hlow (j : Nat) (hj : j < w) : m.getLsbD j = true := by
      rw [← BitVec.testBit_toNat, hm, Nat.testBit_two_pow_sub_one, decide_eq_true hj]
    have harg : (arg.setWidth w).setWidth 24 = arg := by
      apply BitVec.eq_of_toNat_eq
      rw [BitVec.toNat_setWidth, BitVec.toNat_setWidth, Nat.mod_eq_of_lt h, Nat.mod_eq_of_lt arg.isLt]
    rw [← harg]
    exact Laws.Encodable.zeros_and_not_low _ m hlow

/-- A command with an operand of `w` bits admits the ARGs below `2 ^ w`. -/
theorem decode_byte_append_of_lowMask {w : Nat} (hmask : o.argMask.toNat = 2 ^ w - 1) :
    decode (o.byte ++ arg) = if arg.toNat < 2 ^ w then .ok (o.instr arg) else .error .badArg :=
  (decode_byte_append o arg).trans (if_congr (and_not_lowMask_eq_zero_iff hmask) rfl rfl)

/-- An opcode followed by a zero-extended byte operand ends in that byte. -/
theorem append_setWidth_byte (opc b : BitVec 8) : opc ++ b.setWidth 24 = opc ++ 0#16 ++ b := by
  rw [BitVec.setWidth_eq_append (show 8 ≤ 24 by decide), BitVec.append_assoc]
  rfl

end operand

namespace Machine

/-! The update by one byte (40_crc.md R73). -/

theorem crcShifts_eq_iterate (n : Nat) (c : BitVec 16) : crcShifts n c = crcShift^[n] c := by
  induction n generalizing c with
  | zero => rfl
  | succ n ih => exact ih (crcShift c)

theorem crcStep_eq_iterate (c : BitVec 16) (b : BitVec 8) : crcStep c b = crcShift^[8] (c ^^^ b.setWidth 16) :=
  crcShifts_eq_iterate 8 _

theorem crcStep_initial_0x54 : crcStep 0xFFFF 0x54 = 0x1B26 := by decide

theorem crcStep_zero_zero : crcStep 0x0000 0x00 = 0x0000 := by decide

/-- Settles O1: `crcShifts` is the iterate of one shift, and the examples are computed. -/
theorem crcStepIsEightReflectedShifts : Obligations.CrcStepIsEightReflectedShifts :=
  ⟨crcStep_eq_iterate, crcStep_initial_0x54, by decide, crcStep_zero_zero, by decide⟩

/-! The two commands, as whole-record equations (40_crc.md R74, R75), and the register their result is read from (10_state.md R22). -/

theorem exec_crcInit (s : State) : exec .crcInit s = .next { s with crcState := 0xFFFF, errCode := 0 } := rfl

theorem exec_crcByte (s : State) (b : BitVec 8) :
    exec (.crcByte b) s = .next { s with crcState := crcStep s.crcState b, errCode := 0 } := rfl

theorem readReg_crcOut_of_crcState {s : State} {c : BitVec 16} (h : s.crcState = c) :
    readReg s .crcOut = (c ^^^ 0xFFFF).setWidth 32 := h ▸ rfl

/-- Settles O4: what CRC_INIT leaves does not depend on CRC_STATE or ERR_CODE, so a second run changes nothing. -/
theorem crcInitStartsComputation : Obligations.CrcInitStartsComputation := by
  refine ⟨exec_crcInit, fun s t h => ?_, rfl, fun arg => ?_⟩
  · rw [exec_crcInit] at h
    cases h
    exact ⟨rfl, readReg_crcOut_of_crcState (c := 0xFFFF) rfl⟩
  · exact decode_byte_append_of_noArg (o := .crcInit) rfl

/-- Settles O5: the examples are `exec_crcByte` with the step computed, and the operand is the low byte of ARG. -/
theorem crcByteAbsorbsOneByte : Obligations.CrcByteAbsorbsOneByte := by
  refine ⟨exec_crcByte, fun s hs => ?_, fun s hs => ?_, append_setWidth_byte 0x02, fun arg => ?_⟩
  · have hstep : crcStep s.crcState 0x54 = 0x1B26 := hs ▸ crcStep_initial_0x54
    exact ⟨_, exec_crcByte s 0x54, hstep, (readReg_crcOut_of_crcState hstep).trans (by decide)⟩
  · exact ⟨_, exec_crcByte s 0x00, hs ▸ crcStep_zero_zero⟩
  · rw [BitVec.setWidth_eq_extractLsb' (show 8 ≤ 24 by decide)]
    exact decode_byte_append_of_lowMask (o := .crcByte) (w := 8) rfl

/-! The CRC of a byte sequence (40_crc.md R76). -/

theorem execAll_cons_of_next {i : Instr} {is : List Instr} {s t : State} (h : exec i s = .next t) :
    execAll (i :: is) s = execAll is t := by
  simp only [execAll, h]

theorem crcFold_cons (c : BitVec 16) (b : BitVec 8) (bs : List (BitVec 8)) :
    crcFold c (b :: bs) = crcFold (crcStep c b) bs := rfl

/-- One CRC_BYTE per byte folds the bytes into CRC_STATE. -/
theorem execAll_crcBytes (s : State) (c : BitVec 16) (bs : List (BitVec 8)) :
    execAll (bs.map .crcByte) { s with crcState := c, errCode := 0 } =
      .next { s with crcState := crcFold c bs, errCode := 0 } := by
  induction bs generalizing c with
  | nil => rfl
  | cons b bs ih =>
    rw [List.map_cons, execAll_cons_of_next (exec_crcByte _ b), crcFold_cons]
    exact ih (crcStep c b)

theorem xor_crcXorOut_twice (x : BitVec 16) : x ^^^ 0xFFFF ^^^ 0xFFFF = x := by
  rw [BitVec.xor_assoc, BitVec.xor_self, BitVec.xor_zero]

/-- The register from which Crc16 is read is the complement of Crc16. -/
theorem crcFold_initial_eq (bs : List (BitVec 8)) : crcFold 0xFFFF bs = crc16 bs ^^^ 0xFFFF :=
  (xor_crcXorOut_twice (crcFold 0xFFFF bs)).symm

/-- CRC_INIT and one CRC_BYTE per byte leave the complement of the CRC in CRC_STATE. -/
theorem execAll_crc16 (s : State) (bs : List (BitVec 8)) :
    execAll (.crcInit :: bs.map .crcByte) s = .next { s with crcState := crc16 bs ^^^ 0xFFFF, errCode := 0 } := by
  rw [execAll_cons_of_next (exec_crcInit s), execAll_crcBytes, crcFold_initial_eq]

/-- Settles O6: CRC_OUT complements CRC_STATE back into the CRC that `execAll_crc16` leaves there. -/
theorem crcCommandsComputeCrc16 : Obligations.CrcCommandsComputeCrc16 := by
  refine ⟨fun bs => rfl, fun s bs => ⟨_, execAll_crc16 s bs, rfl, ?_⟩, by decide, by decide +kernel, by decide +kernel⟩
  rw [readReg_crcOut_of_crcState (c := crc16 bs ^^^ 0xFFFF) rfl, xor_crcXorOut_twice]

end Machine
end Sys2Proof
end

-- ==== Header family (41_header.md): the filename field, the 55 header bytes and the command that builds them ====
section
/-! The obligations of 41_header.md: FN_CLEAR (R78), FN_PUSH (R79, R80), HDR_BUILD (R81), the header's bytes (R82) and what its size
field holds (R83). -/

namespace Sys2Proof.Machine

/-! The bytes of a header, one by one (41_header.md R82). -/

section headerBytes
variable (fn : Vector (BitVec 8) 50) (len : BitVec 6) (n : BitVec 32)

theorem encodeHeader_getElem_name (k : Nat) (h : k < 50) : (encodeHeader fn len n)[k] = fn[k] :=
  calc (encodeHeader fn len n)[k]
    _ = (fn ++ crcField (crc16 (nameBytes fn len)))[k] := Vector.getElem_append_left (by omega)
    _ = fn[k] := Vector.getElem_append_left h

theorem encodeHeader_getElem_crc (j : Nat) (h : j < 2) :
    (encodeHeader fn len n)[50 + j] = (crcField (crc16 (nameBytes fn len)))[j] :=
  calc (encodeHeader fn len n)[50 + j]
    _ = (fn ++ crcField (crc16 (nameBytes fn len)))[50 + j] := Vector.getElem_append_left (by omega)
    _ = (crcField (crc16 (nameBytes fn len)))[50 + j - 50] := Vector.getElem_append_right (by omega) (by omega)
    _ = (crcField (crc16 (nameBytes fn len)))[j] := by simp only [Nat.add_sub_cancel_left]

theorem encodeHeader_getElem_size (j : Nat) (h : j < 3) : (encodeHeader fn len n)[52 + j] = (sizeField n)[j] :=
  calc (encodeHeader fn len n)[52 + j]
    _ = (sizeField n)[52 + j - 52] := Vector.getElem_append_right (by omega) (by omega)
    _ = (sizeField n)[j] := by simp only [Nat.add_sub_cancel_left]

end headerBytes

/-- Settles O9: each byte lies in one of the three parts, and the two short parts are written out by `crcField` and `sizeField`. -/
theorem encodeHeaderLayout : Obligations.EncodeHeaderLayout := fun fn len n =>
  ⟨encodeHeader_getElem_name fn len n,
    encodeHeader_getElem_crc fn len n 0 (by decide), encodeHeader_getElem_crc fn len n 1 (by decide),
    encodeHeader_getElem_size fn len n 0 (by decide), encodeHeader_getElem_size fn len n 1 (by decide),
    encodeHeader_getElem_size fn len n 2 (by decide)⟩

/-! The number in the size field (41_header.md R83). -/

/-- The byte of a number from bit `start`. -/
theorem toNat_extractLsb'_byte (n : BitVec 32) (start : Nat) :
    (n.extractLsb' start 8).toNat = n.toNat / 2 ^ start % 256 := by
  rw [BitVec.extractLsb'_toNat, Nat.shiftRight_eq_div_pow]

/-- The three bytes of the size field, big-endian, are the length's low 24 bits. -/
theorem sizeField_value (n : BitVec 32) :
    (sizeField n)[0].toNat * 65536 + (sizeField n)[1].toNat * 256 + (sizeField n)[2].toNat = n.toNat % 2 ^ 24 := by
  change (n.extractLsb' 16 8).toNat * 65536 + (n.extractLsb' 8 8).toNat * 256 + (n.extractLsb' 0 8).toNat = _
  simp only [toNat_extractLsb'_byte]
  omega

/-- A length up to SIZE_MAX leaves the top three bits of the size field 0. -/
theorem sizeField_top_le {n : BitVec 32} (h : n.toNat ≤ 0x1FFFFF) : (sizeField n)[0].toNat ≤ 0x1F := by
  change (n.extractLsb' 16 8).toNat ≤ 0x1F
  rw [toNat_extractLsb'_byte]
  omega

/-- The size bytes of a header as a number. -/
theorem encodeHeader_size_value (fn : Vector (BitVec 8) 50) (len : BitVec 6) (n : BitVec 32) :
    (encodeHeader fn len n)[52].toNat * 65536 + (encodeHeader fn len n)[53].toNat * 256 +
      (encodeHeader fn len n)[54].toNat = n.toNat % 2 ^ 24 := by
  obtain ⟨-, -, -, hhigh, hmid, hlow⟩ := encodeHeaderLayout fn len n
  rw [hhigh, hmid, hlow]
  exact sizeField_value n

/-! HDR_BUILD in its two outcomes (41_header.md R81). -/

/-- What HDR_BUILD leaves when it accepts the length (41_header.md R81). -/
def builtHeader (s : State) : State :=
  { s with
    hdrbuf := encodeHeader s.fnbuf s.fnLen s.dataLen
    fnCrc := crc16 (nameBytes s.fnbuf s.fnLen)
    crcState := crcFold 0xFFFF (nameBytes s.fnbuf s.fnLen)
    hdrValid := true
    errCode := 0 }

section hdrBuild
variable {s t : State}

theorem exec_hdrBuild_of_fits (h : s.fileLen ≤ 0x1FFFFF) : exec .hdrBuild s = .next (builtHeader s) :=
  if_neg (Nat.not_lt.2 h)

theorem eq_builtHeader (hfits : s.fileLen ≤ 0x1FFFFF) (h : exec .hdrBuild s = .next t) : t = builtHeader s := by
  rw [exec_hdrBuild_of_fits hfits] at h
  cases h
  rfl

/-- CRC_OUT complements the raw register into the name's CRC. -/
theorem readReg_crcOut_builtHeader (s : State) : readReg (builtHeader s) .crcOut = readReg (builtHeader s) .fnCrc :=
  readReg_crcOut_of_crcState (c := crcFold 0xFFFF (nameBytes s.fnbuf s.fnLen)) rfl

theorem nameBytes_of_empty (h : s.fnLen = 0) : nameBytes s.fnbuf s.fnLen = [] := by
  rw [h]
  rfl

/-- A name held in the first bytes of FNBUF. -/
theorem nameBytes_of_toList {name pad : List (BitVec 8)} (hlen : s.fnLen.toNat = name.length)
    (hbuf : s.fnbuf.toList = name ++ pad) : nameBytes s.fnbuf s.fnLen = name := by
  rw [nameBytes, hbuf, hlen, List.take_left]

/-- The header, the CRC and the raw register of the name at the front of FNBUF, from the CRC of its bytes. -/
theorem builtHeader_of_toList {name pad : List (BitVec 8)} {crc : BitVec 16} (hlen : s.fnLen.toNat = name.length)
    (hbuf : s.fnbuf.toList = name ++ pad) (hcrc : crc16 name = crc) :
    (builtHeader s).fnCrc = crc ∧ (builtHeader s).crcState = crc ^^^ 0xFFFF ∧
    (builtHeader s).hdrbuf.toList = name ++ pad ++
      [crc.extractLsb' 8 8, crc.extractLsb' 0 8,
       s.dataLen.extractLsb' 16 8, s.dataLen.extractLsb' 8 8, s.dataLen.extractLsb' 0 8] := by
  have hname : nameBytes s.fnbuf s.fnLen = name := nameBytes_of_toList hlen hbuf
  have hfnCrc : crc16 (nameBytes s.fnbuf s.fnLen) = crc := hname ▸ hcrc
  refine ⟨hfnCrc, ?_, ?_⟩
  · exact (crcFold_initial_eq (nameBytes s.fnbuf s.fnLen)).trans (congrArg (· ^^^ 0xFFFF) hfnCrc)
  · have hbytes := encodeHeader_toList s.fnbuf s.fnLen s.dataLen
    rwa [hfnCrc, hbuf] at hbytes

end hdrBuild

/-- Settles O11: the value of the size bytes is `encodeHeader_size_value`, and an accepted length fits in 21 of their bits. -/
theorem headerSizeFieldHoldsLength : Obligations.HeaderSizeFieldHoldsLength := by
  refine ⟨encodeHeader_size_value, fun s hfits => ⟨_, exec_hdrBuild_of_fits hfits, rfl, ?_, ?_⟩⟩
  · obtain ⟨-, -, -, hhigh, -⟩ := encodeHeaderLayout s.fnbuf s.fnLen s.dataLen
    exact (congrArg BitVec.toNat hhigh).trans_le (sizeField_top_le hfits)
  · have hsmall : s.fileLen < 2 ^ 24 := by omega
    exact (encodeHeader_size_value s.fnbuf s.fnLen s.dataLen).trans (Nat.mod_eq_of_lt hsmall)

theorem crc16_logTxt : crc16 [0x6C, 0x6F, 0x67, 0x2E, 0x74, 0x78, 0x74] = 0x7B37 := by decide +kernel

/-- Settles O10: a length is rejected or leaves `builtHeader`, whose parts the corner cases and the example read off. -/
theorem hdrBuildBuildsHeader : Obligations.HdrBuildBuildsHeader := by
  refine ⟨fun s => exec_hdrBuild_of_fits, fun s hlarge => execHdrBuild_of_oversized hlarge,
    fun s t hfits h => ?corners, fun s hlen hsize hbuf => ?logTxt, rfl,
    fun arg => decode_byte_append_of_noArg (o := .hdrBuild) rfl⟩
  case corners =>
    obtain rfl := eq_builtHeader hfits h
    obtain ⟨hname, -, -, hhigh, hmid, hlow⟩ := encodeHeaderLayout s.fnbuf s.fnLen s.dataLen
    refine ⟨readReg_crcOut_builtHeader s, fun hzero => ?_, fun hempty => ?_, fun hinv hempty k hk => ?_⟩
    · have hbyte (start : Nat) : s.dataLen.extractLsb' start 8 = 0 := by simp [hzero]
      exact ⟨hhigh.trans (hbyte 16), hmid.trans (hbyte 8), hlow.trans (hbyte 0)⟩
    · exact congrArg crc16 (nameBytes_of_empty hempty)
    · exact (hname k hk).trans (hinv.2 k hk (by simp [hempty]))
  case logTxt =>
    have hfits : s.fileLen ≤ 0x1FFFFF := by simp [State.fileLen, hsize]
    have hbuilt := builtHeader_of_toList (by simp [hlen]) hbuf crc16_logTxt
    rw [hsize] at hbuilt
    exact ⟨_, exec_hdrBuild_of_fits hfits, hbuilt⟩

/-! FN_CLEAR (41_header.md R78) and the STATUS bits it clears (10_state.md R19). -/

section lowestBit
variable {w : Nat} (x : BitVec w) (b : Bool)

theorem getLsbD_append_ofBool_zero : (x ++ BitVec.ofBool b).getLsbD 0 = b := by
  rw [BitVec.getLsbD_append]
  simp

theorem getLsbD_append_ofBool_succ (i : Nat) : (x ++ BitVec.ofBool b).getLsbD (i + 1) = x.getLsbD i := by
  simp [BitVec.getLsbD_append]

end lowestBit

theorem status_hdrValid (s : State) : s.status.getLsbD 1 = s.hdrValid :=
  calc s.status.getLsbD 1
    _ = _ := getLsbD_append_ofBool_succ _ s.busy 0
    _ = s.hdrValid := getLsbD_append_ofBool_zero _ _

theorem status_fnTrunc (s : State) : s.status.getLsbD 4 = s.fnTrunc :=
  calc s.status.getLsbD 4
    _ = _ := getLsbD_append_ofBool_succ _ s.busy 3
    _ = _ := getLsbD_append_ofBool_succ _ s.hdrValid 2
    _ = _ := getLsbD_append_ofBool_succ _ s.planValid 1
    _ = _ := getLsbD_append_ofBool_succ _ s.pktValid 0
    _ = s.fnTrunc := getLsbD_append_ofBool_zero _ _

theorem exec_fnClear (s : State) : exec .fnClear s = .next { s with
    fnbuf := Vector.replicate 50 0, fnLen := 0, fnTrunc := false, hdrValid := false, errCode := 0 } := rfl

/-- Settles O7: `exec_fnClear`, whose result has the length of before, so HDR_BUILD accepts it when it would have before. -/
theorem fnClearEmptiesName : Obligations.FnClearEmptiesName := by
  refine ⟨exec_fnClear, fun s t h => ?_, rfl, fun arg => decode_byte_append_of_noArg (o := .fnClear) rfl⟩
  rw [exec_fnClear] at h
  cases h
  exact ⟨rfl, status_hdrValid _, status_fnTrunc _, fun hfits => ⟨_, exec_hdrBuild_of_fits hfits, rfl⟩⟩

/-! FN_PUSH (41_header.md R79, R80). -/

/-- Bit 7 tells the ASCII codes, 0x00 to 0x7F, from the other bytes. -/
theorem getLsbD_seven (b : BitVec 8) : b.getLsbD 7 = decide (128 ≤ b.toNat) :=
  (BitVec.msb_eq_getLsbD_last b).symm.trans (BitVec.msb_eq_decide b)

theorem mapByte_of_ascii {b : BitVec 8} (h : b.toNat < 128) : mapByte b = b := by
  rw [mapByte, getLsbD_seven, decide_eq_false (Nat.not_le.2 h)]
  rfl

theorem mapByte_of_nonAscii {b : BitVec 8} (h : 128 ≤ b.toNat) : mapByte b = 0x3F := by
  rw [mapByte, getLsbD_seven, decide_eq_true h]
  rfl

theorem exec_fnPush_of_room {s : State} (b : BitVec 8) (h : s.fnLen.toNat < 50) :
    exec (.fnPush b) s = .next { s with
      fnbuf := s.fnbuf.set s.fnLen.toNat (mapByte b) h, fnLen := s.fnLen + 1, hdrValid := false, errCode := 0 } :=
  execFnPush_of_room b h

theorem exec_fnPush_of_full {s : State} (b : BitVec 8) (h : 50 ≤ s.fnLen.toNat) :
    exec (.fnPush b) s = .next { s with fnTrunc := true, hdrValid := false, errCode := 0 } :=
  execFnPush_of_full b (Nat.not_lt.2 h)

/-- A byte stored behind the name and counted is its last byte, whatever its value. -/
theorem nameBytes_push (fn : Vector (BitVec 8) 50) (len : BitVec 6) (b : BitVec 8) (h : len.toNat < 50) :
    nameBytes (fn.set len.toNat b h) (len + 1) = nameBytes fn len ++ [b] := by
  have hlen : (len + 1).toNat = len.toNat + 1 := by bv_omega
  have hroom : len.toNat < fn.toList.length := by simpa using h
  calc nameBytes (fn.set len.toNat b h) (len + 1)
    _ = (fn.toList.set len.toNat b).take (len.toNat + 1) := by rw [nameBytes, hlen, Vector.toList_set]
    _ = (fn.toList.set len.toNat b).take len.toNat ++ [b] := by
      rw [List.take_add_one, List.getElem?_set_self hroom]; rfl
    _ = nameBytes fn len ++ [b] := by rw [List.take_set_of_le (Nat.le_refl _)]; rfl

/-- Settles O8: the two branches of FN_PUSH meet at 50 bytes held, and `nameBytes_push` is the effect on the name. -/
theorem fnPushAppendsOrTruncates : Obligations.FnPushAppendsOrTruncates := by
  refine ⟨fun b => ⟨mapByte_of_ascii, mapByte_of_nonAscii⟩, fun s b => exec_fnPush_of_room b, fun s t b hroom h => ?_,
    fun s b => exec_fnPush_of_full b, append_setWidth_byte 0x11, fun arg => ?_⟩
  · rw [exec_fnPush_of_room b hroom] at h
    cases h
    exact nameBytes_push s.fnbuf s.fnLen (mapByte b) hroom
  · rw [BitVec.setWidth_eq_extractLsb' (show 8 ≤ 24 by decide)]
    exact decode_byte_append_of_lowMask (o := .fnPush) (w := 8) rfl

end Sys2Proof.Machine
end

-- ==== Sequencer family (42_sequencer.md): the frame count, the frames' geometry and the two commands that report them ====
section
/-! The obligations of 42_sequencer.md: the frame count (R87), the geometry of each frame (R88), PLAN (R85, R86), FRAME_INFO (R89) and
the mode and roles they report (R84). -/

namespace Sys2Proof.Machine

/-! The frame count (42_sequencer.md R87). -/

section frameCount
variable {n : Nat}

/-- `ceil_div(a, b)` is the least `q` with `a <= q * b` (00_scope.md R13). -/
theorem ceilDiv_le_iff {a b q : Nat} (hb : 0 < b) : ceilDiv a b ≤ q ↔ a ≤ q * b := by
  rw [ceilDiv, Nat.div_le_iff_le_mul_add_pred hb, Nat.add_le_add_iff_right, Nat.mul_comm]

theorem frameCount_of_single (h : n ≤ 163) : frameCount n = 1 := if_pos h

theorem frameCount_of_multi (h : 163 < n) : frameCount n = 1 + ceilDiv (n - 163) 219 := if_neg (Nat.not_le.2 h)

/-- The first frame and `q` later ones suffice for a file exactly when it has at most `163 + 219 * q` bytes. -/
theorem frameCount_le_succ_iff (n q : Nat) : frameCount n ≤ q + 1 ↔ n ≤ 163 + 219 * q := by
  rcases le_or_gt n 163 with hsingle | hmulti
  · rw [frameCount_of_single hsingle]
    omega
  · have hchunks : ceilDiv (n - 163) 219 ≤ q ↔ n - 163 ≤ q * 219 := ceilDiv_le_iff (by decide)
    rw [frameCount_of_multi hmulti]
    omega

theorem frameCount_pos (n : Nat) : 1 ≤ frameCount n := by
  rcases le_or_gt n 163 with hsingle | hmulti
  · exact (frameCount_of_single hsingle).ge
  · rw [frameCount_of_multi hmulti]
    exact Nat.le_add_right 1 _

/-- The same, for a file that needs more frames. -/
theorem succ_lt_frameCount_iff (n q : Nat) : q + 1 < frameCount n ↔ 163 + 219 * q < n := by
  rw [← Nat.not_le, frameCount_le_succ_iff, Nat.not_le]

theorem one_lt_frameCount_iff : 1 < frameCount n ↔ 163 < n := succ_lt_frameCount_iff n 0

theorem frameCount_le_max (h : n ≤ 0x1FFFFF) : frameCount n ≤ 9577 :=
  (frameCount_le_succ_iff n 9576).2 (by omega)

end frameCount

/-- Settles O12: `ceilDiv_le_iff` at the chunk count itself and at any other count, and `frameCount_le_max`. -/
theorem frameCountIsLeastChunkCount : Obligations.FrameCountIsLeastChunkCount := by
  refine ⟨fun n _ => frameCount_of_single, fun n hmulti => ⟨ceilDiv (n - 163) 219, frameCount_of_multi hmulti, ?_, ?_⟩,
    rfl, rfl, rfl, rfl, rfl, fun n => frameCount_le_max⟩
  · exact (ceilDiv_le_iff (by decide)).1 (Nat.le_refl _)
  · exact fun p => (ceilDiv_le_iff (by decide)).2

/-! The geometry of each kind of frame (42_sequencer.md R88). -/

section frameGeom
variable {n i : Nat}

theorem frameGeom_single (i : Nat) (h : n ≤ 163) :
    frameGeom i n = { role := .single, off := 0, dlen := n, plen := 55 + n } := if_pos h

theorem frameGeom_first (h : 163 < n) :
    frameGeom 1 n = { role := .first, off := 0, dlen := 163, plen := 218 } := if_neg (Nat.not_le.2 h)

theorem frameGeom_later (h : 163 < n) (hi : i ≠ 1) :
    frameGeom i n =
      { role := if i = frameCount n then .last else .middle, off := 163 + 219 * (i - 2),
        dlen := min 219 (n - (163 + 219 * (i - 2))), plen := min 219 (n - (163 + 219 * (i - 2))) } :=
  (if_neg (Nat.not_le.2 h)).trans (if_neg hi)

/-- A middle frame is full, because the frames up to it do not hold the file. -/
theorem frameGeom_middle (hlo : 1 < i) (hhi : i < frameCount n) :
    frameGeom i n = { role := .middle, off := 163 + 219 * (i - 2), dlen := 219, plen := 219 } := by
  have hmulti : 163 < n := one_lt_frameCount_iff.1 (hlo.trans hhi)
  have hmore : 163 + 219 * (i - 1) < n := (succ_lt_frameCount_iff n (i - 1)).1 (by omega)
  have hfull : min 219 (n - (163 + 219 * (i - 2))) = 219 := by omega
  rw [frameGeom_later hmulti hlo.ne', if_neg hhi.ne, hfull]

/-- The last frame ends where the file ends, and starts before that, because one frame less does not hold the file. -/
theorem frameGeom_last (h : 163 < n) : ∃ d, 1 ≤ d ∧ d ≤ 219 ∧ 163 + 219 * (frameCount n - 2) + d = n ∧
    frameGeom (frameCount n) n =
      { role := .last, off := 163 + 219 * (frameCount n - 2), dlen := d, plen := d } := by
  have hcount : 1 < frameCount n := one_lt_frameCount_iff.2 h
  have hmore : 163 + 219 * (frameCount n - 2) < n := (succ_lt_frameCount_iff n (frameCount n - 2)).1 (by omega)
  have henough : n ≤ 163 + 219 * (frameCount n - 1) := (frameCount_le_succ_iff n (frameCount n - 1)).1 (by omega)
  have hrest : min 219 (n - (163 + 219 * (frameCount n - 2))) = n - (163 + 219 * (frameCount n - 2)) := by omega
  refine ⟨n - (163 + 219 * (frameCount n - 2)), by omega, by omega, by omega, ?_⟩
  rw [frameGeom_later h hcount.ne', if_pos rfl, hrest]

/-- The four kinds of frame of a plan: the only frame, the first, a middle one and the last. -/
theorem frameGeom_cases (hlo : 1 ≤ i) (hhi : i ≤ frameCount n) :
    (n ≤ 163 ∧ i = 1 ∧ frameGeom i n = { role := .single, off := 0, dlen := n, plen := 55 + n }) ∨
    (163 < n ∧ i = 1 ∧ frameGeom i n = { role := .first, off := 0, dlen := 163, plen := 218 }) ∨
    (1 < i ∧ i < frameCount n ∧
      frameGeom i n = { role := .middle, off := 163 + 219 * (i - 2), dlen := 219, plen := 219 }) ∨
    (1 < i ∧ i = frameCount n ∧ ∃ d, 1 ≤ d ∧ d ≤ 219 ∧
      frameGeom i n = { role := .last, off := 163 + 219 * (i - 2), dlen := d, plen := d }) := by
  rcases Nat.eq_or_lt_of_le hlo with rfl | hlater
  · rcases le_or_gt n 163 with hsingle | hmulti
    · exact .inl ⟨hsingle, rfl, frameGeom_single 1 hsingle⟩
    · exact .inr (.inl ⟨hmulti, rfl, frameGeom_first hmulti⟩)
  · rcases Nat.eq_or_lt_of_le hhi with rfl | hbefore
    · obtain ⟨d, hpos, hmax, -, hgeom⟩ := frameGeom_last (one_lt_frameCount_iff.1 hlater)
      exact .inr (.inr (.inr ⟨hlater, rfl, d, hpos, hmax, hgeom⟩))
    · exact .inr (.inr (.inl ⟨hlater, hbefore, frameGeom_middle hlater hbefore⟩))

/-- The lengths of a planned frame fit PAYLOAD_MAX (00_scope.md R8). -/
theorem frameGeom_lengths_le (hlo : 1 ≤ i) (hhi : i ≤ frameCount n) :
    (frameGeom i n).dlen ≤ 219 ∧ (frameGeom i n).plen ≤ 219 := by
  obtain ⟨hsingle, -, hgeom⟩ | ⟨-, -, hgeom⟩ | ⟨-, -, hgeom⟩ | ⟨-, -, d, -, hmax, hgeom⟩ := frameGeom_cases hlo hhi
  · simp only [hgeom]
    omega
  · simp [hgeom]
  · simp [hgeom]
  · simp [hgeom, hmax]

theorem frameGeom_off_succ (h : 163 < n) (hi : 1 ≤ i) : (frameGeom (i + 1) n).off = 163 + 219 * (i - 1) := by
  rw [frameGeom_later h (by omega)]
  dsimp only
  omega

/-- The frames up to one that is not the last hold the first frame's 163 bytes and 219 for each later one. -/
theorem frameGeom_end_of_lt (hlo : 1 ≤ i) (hhi : i < frameCount n) :
    (frameGeom i n).off + (frameGeom i n).dlen = 163 + 219 * (i - 1) := by
  rcases Nat.eq_or_lt_of_le hlo with rfl | hlater
  · rw [frameGeom_first (one_lt_frameCount_iff.1 hhi)]
    rfl
  · rw [frameGeom_middle hlater hhi]
    dsimp only
    omega

theorem frameGeom_one_off (n : Nat) : (frameGeom 1 n).off = 0 := by
  rcases le_or_gt n 163 with hsingle | hmulti
  · rw [frameGeom_single 1 hsingle]
  · rw [frameGeom_first hmulti]

/-- The last frame of a plan, of whichever mode, ends where the file ends. -/
theorem frameGeom_end_last (n : Nat) :
    (frameGeom (frameCount n) n).off + (frameGeom (frameCount n) n).dlen = n := by
  rcases le_or_gt n 163 with hsingle | hmulti
  · rw [frameGeom_single _ hsingle]
    exact Nat.zero_add n
  · obtain ⟨d, -, -, hend, hgeom⟩ := frameGeom_last hmulti
    rw [hgeom]
    exact hend

/-- The properties R88 lists, by the role a frame has. -/
theorem frameGeom_role_lengths (hn : 1 ≤ n) (hlo : 1 ≤ i) (hhi : i ≤ frameCount n) :
    ((frameGeom i n).role = .middle → (frameGeom i n).dlen = 219) ∧
    ((frameGeom i n).role = .last → 1 ≤ (frameGeom i n).dlen ∧ (frameGeom i n).dlen ≤ 219) ∧
    ((frameGeom i n).role = .single →
      1 ≤ (frameGeom i n).dlen ∧ (frameGeom i n).dlen ≤ 163 ∧ (frameGeom i n).plen ≤ 218) := by
  obtain ⟨hsingle, -, hgeom⟩ | ⟨-, -, hgeom⟩ | ⟨-, -, hgeom⟩ | ⟨-, -, d, hpos, hmax, hgeom⟩ := frameGeom_cases hlo hhi
  · rw [hgeom]
    exact ⟨nofun, nofun, fun _ => ⟨hn, hsingle, Nat.add_le_add_left hsingle 55⟩⟩
  · rw [hgeom]
    exact ⟨nofun, nofun, nofun⟩
  · rw [hgeom]
    exact ⟨fun _ => rfl, nofun, nofun⟩
  · rw [hgeom]
    exact ⟨nofun, fun _ => ⟨hpos, hmax⟩, nofun⟩

/-- A FIRST frame's payload of 218 bytes leaves packet byte 220 as padding (43_packet.md R92). -/
theorem encodePacket_last_of_length (tag role : BitVec 8) {pay : List (BitVec 8)} (h : pay.length = 218) :
    (encodePacket tag role pay)[220] = 0 := by
  rw [encodePacket_getElem tag role pay 220 (by decide)]
  exact List.getD_eq_default pay 0 h.le

end frameGeom

/-- Settles O13: the three cases of `FrameGeom`, the lengths by role, and each frame's end against the next one's start. -/
theorem frameGeometryTilesFile : Obligations.FrameGeometryTilesFile := by
  refine ⟨fun n i hn _ hlo hhi => ?geometry, fun n _ _ => ?tiling, fun role pay => encodePacket_last_of_length _ role⟩
  case geometry =>
    obtain ⟨hmiddle, hlast, hsingle⟩ := frameGeom_role_lengths hn hlo hhi
    obtain ⟨-, hpayload⟩ := frameGeom_lengths_le hlo hhi
    exact ⟨frameGeom_single i, fun hmulti hi => hi ▸ frameGeom_first hmulti, frameGeom_later, hmiddle, hlast, hsingle,
      hpayload⟩
  case tiling =>
    refine ⟨frameGeom_one_off n, fun i hlo hhi => ?_, frameGeom_end_last n⟩
    have hmulti : 163 < n := one_lt_frameCount_iff.1 (hlo.trans_lt hhi)
    exact (frameGeom_off_succ hmulti hlo).trans (frameGeom_end_of_lt hlo hhi).symm

/-! PLAN in its three outcomes (42_sequencer.md R85, R86). -/

/-- What PLAN leaves when it accepts the length (42_sequencer.md R86). -/
def plannedState (s : State) : State := { s with plan := planRegs s.fileLen, errCode := 0 }

section plan
variable {s t : State}

theorem execPlan_of_empty (h : s.fileLen = 0) : execPlan s = .next (raiseCmdError .emptyFile s) := if_pos h

theorem exec_plan_of_fits (hlo : 1 ≤ s.fileLen) (hhi : s.fileLen ≤ 0x1FFFFF) :
    exec .plan s = .next (plannedState s) :=
  (if_neg (Nat.ne_of_gt hlo)).trans (if_neg (Nat.not_lt.2 hhi))

/-- The frame count fits FRAME_COUNT (10_state.md R26). -/
theorem planRegs_frameCount_toNat {n : Nat} (h : n ≤ 0x1FFFFF) : (planRegs n).frameCount.toNat = frameCount n := by
  have hmax := frameCount_le_max h
  exact (BitVec.toNat_ofNat _ _).trans (Nat.mod_eq_of_lt (by omega))

/-- A length up to PAYLOAD_MAX fits an 8-bit register (10_state.md R28, R32, R33). -/
theorem toNat_ofNat_length {d : Nat} (h : d ≤ 219) : (BitVec.ofNat 8 d).toNat = d :=
  (BitVec.toNat_ofNat _ _).trans (Nat.mod_eq_of_lt (by omega))

theorem planRegs_lastDataLen_toNat (n : Nat) :
    (planRegs n).lastDataLen.toNat = (frameGeom (frameCount n) n).dlen :=
  toNat_ofNat_length (frameGeom_lengths_le (frameCount_pos n) (Nat.le_refl _)).1

theorem planRegs_mode_of_single {n : Nat} (h : n ≤ 163) : (planRegs n).mode = 1 := if_pos h

theorem planRegs_mode_of_multi {n : Nat} (h : 163 < n) : (planRegs n).mode = 2 := if_neg (Nat.not_le.2 h)

theorem planRegs_mode_ne_zero (n : Nat) : (planRegs n).mode ≠ 0 := by
  rcases le_or_gt n 163 with hsingle | hmulti
  · rw [planRegs_mode_of_single hsingle]
    decide
  · rw [planRegs_mode_of_multi hmulti]
    decide

theorem status_planValid (s : State) : s.status.getLsbD 2 = s.planValid :=
  calc s.status.getLsbD 2
    _ = _ := getLsbD_append_ofBool_succ _ s.busy 1
    _ = _ := getLsbD_append_ofBool_succ _ s.hdrValid 0
    _ = s.planValid := getLsbD_append_ofBool_zero _ _

theorem plannedState_planValid (s : State) : (plannedState s).planValid = true :=
  bne_iff_ne.2 (planRegs_mode_ne_zero s.fileLen)

/-- There is no plan for a length that PLAN rejects (10_state.md R43). -/
theorem mode_eq_zero_of_badLength (hinv : s.planInv) (hbad : s.fileLen = 0 ∨ 0x1FFFFF < s.fileLen) :
    s.plan.mode = 0 := by
  obtain ⟨-, -, -, -, -, hlength⟩ := hinv
  by_contra hplanned
  obtain ⟨hlo, hhi⟩ := hlength hplanned
  have hmax : s.fileLen ≤ 0x1FFFFF := hhi
  omega

theorem plan_eq_none_of_mode (hinv : s.planInv) (hmode : s.plan.mode = 0) : s.plan = PlanRegs.none := by
  obtain ⟨-, hzero, -⟩ := hinv
  obtain ⟨hcount, hpass, hlast⟩ := hzero hmode
  calc s.plan
    _ = ⟨s.plan.mode, s.plan.frameCount, s.plan.passCount, s.plan.lastDataLen⟩ := rfl
    _ = PlanRegs.none := by rw [hmode, hcount, hpass, hlast]; rfl

/-- On a length that PLAN rejects, the plan registers stay as they were. -/
theorem plan_of_exec_plan_badLength (hbad : s.fileLen = 0 ∨ 0x1FFFFF < s.fileLen) (h : exec .plan s = .next t) :
    t.plan = s.plan := by
  obtain ⟨-, rfl⟩ | ⟨-, rfl⟩ | ⟨hlo, hhi, -⟩ := execPlan_next h
  · rfl
  · rfl
  · have hmax : s.fileLen ≤ 0x1FFFFF := hhi
    omega

end plan

theorem fileLen_of_dataLen_500 {s : State} (h : s.dataLen = 500) : s.fileLen = 500 := by
  rw [fileLen_eq, h]
  rfl

/-- Settles O14: an accepted length leaves `plannedState`, a rejected one an error, and the exact numbers fit the registers. -/
theorem planComputesFramePlan : Obligations.PlanComputesFramePlan := by
  refine ⟨fun s => exec_plan_of_fits, fun s t hlo hhi h => ?planned, fun s => execPlan_of_empty,
    fun s hlarge => execPlan_of_oversized hlarge, fun s t hinv hbad h => ?noPlan, fun s hlen => ?example500, rfl,
    fun arg => decode_byte_append_of_noArg (o := .plan) rfl⟩
  case planned =>
    rw [exec_plan_of_fits hlo hhi] at h
    cases h
    exact ⟨planRegs_frameCount_toNat hhi, planRegs_lastDataLen_toNat s.fileLen,
      (status_planValid _).trans (plannedState_planValid s), exec_plan_of_fits (s := plannedState s) hlo hhi⟩
  case noPlan =>
    exact (plan_of_exec_plan_badLength hbad h).trans (plan_eq_none_of_mode hinv (mode_eq_zero_of_badLength hinv hbad))
  case example500 =>
    have hfile : s.fileLen = 500 := fileLen_of_dataLen_500 hlen
    rw [exec_plan_of_fits (by omega) (by omega), plannedState, hfile]
    rfl

/-! FRAME_INFO in its three outcomes (42_sequencer.md R89). -/

/-- What FRAME_INFO leaves when frame `i` is in the plan (42_sequencer.md R89). -/
def reportedFrame (i : BitVec 16) (s : State) : State :=
  { s with frame := frameRegs i (frameGeom i.toNat s.fileLen), errCode := 0 }

section frameInfo
variable {s : State} {i : BitVec 16}

theorem indexOutOfPlan_iff : s.indexOutOfPlan i = true ↔ i = 0 ∨ s.plan.frameCount.toNat < i.toNat := by
  simp [State.indexOutOfPlan, BitVec.lt_def]

theorem exec_frameInfo_of_noPlan (h : s.plan.mode = 0) :
    exec (.frameInfo i) s = .next (raiseCmdError .notReady s) := if_pos h

theorem exec_frameInfo_of_outOfPlan (hmode : s.plan.mode ≠ 0) (hi : i = 0 ∨ s.plan.frameCount.toNat < i.toNat) :
    exec (.frameInfo i) s = .next (raiseCmdError .badIndex s) :=
  (if_neg hmode).trans (if_pos (indexOutOfPlan_iff.2 hi))

theorem exec_frameInfo_of_planned (hmode : s.plan.mode ≠ 0) (hlo : i ≠ 0) (hhi : i.toNat ≤ s.plan.frameCount.toNat) :
    exec (.frameInfo i) s = .next (reportedFrame i s) :=
  (if_neg hmode).trans (if_neg fun hout => (indexOutOfPlan_iff.1 hout).elim hlo (Nat.not_lt.2 hhi))

/-- PLAN and then FRAME_INFO of a frame that PLAN counted. -/
theorem exec_frameInfo_plannedState (hlo : 1 ≤ i.toNat) (hhi : i.toNat ≤ (plannedState s).plan.frameCount.toNat) :
    exec (.frameInfo i) (plannedState s) = .next (reportedFrame i (plannedState s)) :=
  exec_frameInfo_of_planned (planRegs_mode_ne_zero s.fileLen) (by rintro rfl; exact absurd hlo (by decide)) hhi

/-- The role FRAME_INFO reports for the last frame: SINGLE when it is the only one, else LAST. -/
theorem code_role_last (n : Nat) :
    FrameRole.code (frameGeom (frameCount n) n).role = if frameCount n = 1 then 3 else 2 := by
  rcases le_or_gt n 163 with hsingle | hmulti
  · rw [frameGeom_single _ hsingle, if_pos (frameCount_of_single hsingle)]
    rfl
  · obtain ⟨d, -, -, -, hgeom⟩ := frameGeom_last hmulti
    rw [hgeom, if_neg (one_lt_frameCount_iff.2 hmulti).ne']
    rfl

/-- The role FRAME_INFO reports for each frame of a MULTI plan (42_sequencer.md R84). -/
theorem code_role_of_multi {n k : Nat} (h : 163 < n) (hlo : 1 ≤ k) (hhi : k ≤ frameCount n) :
    FrameRole.code (frameGeom k n).role = if k = 1 then 0 else if k = frameCount n then 2 else 1 := by
  obtain ⟨hsingle, -⟩ | ⟨-, hfirst, hgeom⟩ | ⟨hlater, hbefore, hgeom⟩ | ⟨hlater, hlast, d, -, -, hgeom⟩ :=
    frameGeom_cases hlo hhi
  · omega
  · rw [hgeom, if_pos hfirst]
    rfl
  · rw [hgeom, if_neg hlater.ne', if_neg hbefore.ne]
    rfl
  · rw [hgeom, if_neg hlater.ne', if_pos hlast]
    rfl

/-- An index as a command operand has 8 zero bits above it (30_encoding.md R66). -/
theorem append_setWidth_half (opc : BitVec 8) (i : BitVec 16) : opc ++ i.setWidth 24 = opc ++ 0#8 ++ i := by
  rw [BitVec.setWidth_eq_append (show 16 ≤ 24 by decide), BitVec.append_assoc]
  rfl

end frameInfo

/-- Settles O17: the three outcomes, `code_role_last` for the last frame, and the example as `reportedFrame` computed. -/
theorem frameInfoReportsGeometry : Obligations.FrameInfoReportsGeometry := by
  refine ⟨fun s i => exec_frameInfo_of_planned, fun s i => exec_frameInfo_of_noPlan, fun s i => exec_frameInfo_of_outOfPlan,
    fun s hcurrent hmode => ?lastFrame, fun s hlen hmode hcount => ?example500, append_setWidth_half 0x21, fun arg => ?decoded⟩
  case lastFrame =>
    obtain hnone | ⟨-, hhi, hplan⟩ := hcurrent
    · exact absurd (congrArg PlanRegs.mode hnone) hmode
    · have hcount : s.plan.frameCount.toNat = frameCount s.fileLen := by rw [hplan, planRegs_frameCount_toNat hhi]
      have hone : s.plan.frameCount = 1 ↔ frameCount s.fileLen = 1 := by rw [← hcount]; exact BitVec.toNat_inj.symm
      have hne : s.plan.frameCount ≠ 0 := fun hzero => by
        have hpos := frameCount_pos s.fileLen
        rw [← hcount, hzero] at hpos
        exact absurd hpos (by decide)
      refine ⟨_, exec_frameInfo_of_planned hmode hne (Nat.le_refl _), ?_⟩
      calc FrameRole.code (frameGeom s.plan.frameCount.toNat s.fileLen).role
        _ = if frameCount s.fileLen = 1 then 3 else 2 := by rw [hcount, code_role_last]
        _ = if s.plan.frameCount = 1 then 3 else 2 := by simp only [hone]
  case example500 =>
    rw [exec_frameInfo_of_planned (i := 2) hmode (by decide) hcount, reportedFrame, fileLen_of_dataLen_500 hlen]
    rfl
  case decoded =>
    rw [BitVec.setWidth_eq_extractLsb' (show 16 ≤ 24 by decide)]
    exact decode_byte_append_of_lowMask (o := .frameInfo) (w := 16) rfl

/-- What FRAME_INFO reports of a file that fits in one frame (42_sequencer.md R84). -/
theorem reportedFrame_of_single {s : State} (h : s.fileLen ≤ 163) :
    (reportedFrame 1 s).frame.role = 3 ∧ (reportedFrame 1 s).frame.dataOff = 0 ∧
      (reportedFrame 1 s).frame.dataLen.toNat = s.fileLen := by
  simp only [reportedFrame, frameRegs, frameGeom_single _ h]
  exact ⟨rfl, rfl, toNat_ofNat_length (by omega)⟩

/-- The registers FRAME_INFO writes for frame 1 of a MULTI plan (42_sequencer.md R84). -/
theorem reportedFrame_of_first {s : State} (h : 163 < s.fileLen) :
    (reportedFrame 1 s).frame.dataOff = 0 ∧ (reportedFrame 1 s).frame.dataLen = 163 ∧
      (reportedFrame 1 s).frame.payloadLen = 218 := by
  have hgeom : frameGeom (1 : BitVec 16).toNat s.fileLen = _ := frameGeom_first h
  simp only [reportedFrame, frameRegs, hgeom]
  exact ⟨rfl, rfl, rfl⟩

/-- A frame after the first carries data only (42_sequencer.md R88). -/
theorem reportedFrame_of_later {s : State} {i : BitVec 16} (h : 163 < s.fileLen) (hi : i.toNat ≠ 1) :
    (reportedFrame i s).frame.dataLen.toNat ≤ 219 ∧
      (reportedFrame i s).frame.payloadLen = (reportedFrame i s).frame.dataLen := by
  have hlen := Nat.min_le_left 219 (s.fileLen - (163 + 219 * (i.toNat - 2)))
  simp only [reportedFrame, frameRegs, frameGeom_later h hi, and_true]
  exact (toNat_ofNat_length hlen).trans_le hlen

/-- Settles O15: PLAN leaves `plannedState`, in which FRAME_INFO reports each counted frame as `reportedFrame`. -/
theorem plannedFramesHaveTheirRoles : Obligations.PlannedFramesHaveTheirRoles := by
  refine ⟨fun s hlo hsingle => ?single, fun s hmulti hhi => ?multi⟩
  case single =>
    have hcount : (plannedState s).plan.frameCount = 1 := congrArg (BitVec.ofNat 16) (frameCount_of_single hsingle)
    refine ⟨plannedState s, exec_plan_of_fits hlo (by omega), planRegs_mode_of_single hsingle, hcount, _,
      exec_frameInfo_plannedState (by decide) (by rw [hcount]), rfl, ?_⟩
    exact reportedFrame_of_single (s := plannedState s) hsingle
  case multi =>
    have hcount : (plannedState s).plan.frameCount.toNat = frameCount s.fileLen := planRegs_frameCount_toNat hhi
    refine ⟨plannedState s, exec_plan_of_fits (by omega) hhi, planRegs_mode_of_multi hmulti,
      hcount.symm ▸ one_lt_frameCount_iff.2 hmulti, fun i hfrom hto => ?_⟩
    have hfirst : i = 1 ↔ i.toNat = 1 := BitVec.toNat_inj.symm
    have hlast : i = (plannedState s).plan.frameCount ↔ i.toNat = frameCount s.fileLen :=
      hcount ▸ BitVec.toNat_inj.symm
    refine ⟨_, exec_frameInfo_plannedState hfrom hto, rfl, ?_, ?_, fun hi => ?_⟩
    · simp only [hfirst, hlast]
      exact code_role_of_multi hmulti hfrom (hcount ▸ hto)
    · rintro rfl
      exact reportedFrame_of_first (s := plannedState s) hmulti
    · exact reportedFrame_of_later (s := plannedState s) hmulti (mt hfirst.2 hi)

/-- Settles O16: a rejected length raises its error in PLAN, and under the invariant it has no plan for PKT_BUILD to use. -/
theorem lengthChecksPrecedePackets : Obligations.LengthChecksPrecedePackets := by
  refine ⟨fun s => execPlan_of_empty, fun s hlarge => execPlan_of_oversized hlarge, fun s => by omega,
    fun s i hinv hbad => ?_⟩
  exact if_pos (mode_eq_zero_of_badLength hinv hbad)

end Sys2Proof.Machine
end

-- ==== Packet family (43_packet.md): the encoded packet, PKT_RAW and what every built packet keeps ====
section
/-! The obligations of 43_packet.md: the bytes of an encoded packet (R92), PKT_RAW (R93) and what holds of every packet that PKT_BUILD
or PKT_RAW leaves (R95). -/

namespace Sys2Proof.Machine

/-! The bytes of an encoded packet (43_packet.md R92). -/

section packetBytes
variable (tag role : BitVec 8) (pay : List (BitVec 8))

/-- The payload region holds the payload, and zeros where it has no byte. -/
theorem encodePacket_getElem_payload (k : Nat) (hk : k < 219) : (encodePacket tag role pay)[2 + k] = pay.getD k 0 := by
  rw [encodePacket_getElem, if_neg (by omega), if_neg (by omega), Nat.add_sub_cancel_left]

theorem encodePacket_getElem_padding (k : Nat) (hk : k < 219) (h : pay.length ≤ k) :
    (encodePacket tag role pay)[2 + k] = 0 :=
  (encodePacket_getElem_payload tag role pay k hk).trans (List.getD_eq_default pay 0 h)

theorem getD_append_zero (k : Nat) : (pay ++ [0]).getD k 0 = pay.getD k 0 := by
  rcases Nat.lt_or_ge k pay.length with hin | hout
  · exact List.getD_append pay [0] 0 k hin
  · rw [List.getD_append_right pay [0] 0 k hout, List.getD_eq_default pay 0 hout]
    exact List.getElem?_getD_replicate_default_eq 0 1 (k - pay.length)

/-- A zero byte at the end of a payload cannot be told from padding. -/
theorem encodePacket_append_zero : encodePacket tag role (pay ++ [0]) = encodePacket tag role pay := by
  ext k hk : 1
  simp only [encodePacket_getElem, getD_append_zero]

end packetBytes

/-- Settles O18: bytes 0 and 1 are written first, and each later one is a payload byte or padding. -/
theorem encodePacketLayout : Obligations.EncodePacketLayout := fun tag role pay =>
  ⟨Vector.length_toList, rfl, rfl,
    fun k hk hp => (encodePacket_getElem_payload tag role pay k hk).trans (List.getD_eq_getElem pay 0 hp),
    encodePacket_getElem_padding tag role pay⟩

/-! PKT_RAW in its three outcomes (43_packet.md R93). -/

section pktRaw
variable {s : State} {pay : List (BitVec 8)}

theorem exec_pktRaw_of_outOfRange (role : BitVec 2) (h : 0x200000 < s.rawOff.toNat + s.rawCount) :
    exec (.pktRaw role) s = .next (raiseCmdError .srcRange s) := if_pos h

theorem exec_pktRaw_of_unwritten (role : BitVec 2) {k : Nat} (hr : s.rawOff.toNat + s.rawCount ≤ 0x200000)
    (hk : k < s.rawCount) (h : s.src.read (s.rawOff.toNat + k) = none) :
    exec (.pktRaw role) s = .fault .unwrittenSrcRead := by
  have hnone : s.src.readRange s.rawOff.toNat s.rawCount = none := (Memory.readRange_eq_none_iff _ _ _).2 ⟨k, hk, h⟩
  refine (if_neg (Nat.not_lt.2 hr)).trans ?_
  rw [hnone]

theorem exec_pktRaw_of_written (role : BitVec 2) (hr : s.rawOff.toNat + s.rawCount ≤ 0x200000)
    (hlen : pay.length = s.rawCount)
    (h : ∀ (k : Nat) (hk : k < pay.length), s.src.read (s.rawOff.toNat + k) = some pay[k]) :
    exec (.pktRaw role) s = .next (rawPacket role pay s) := by
  refine execPktRaw_eq hr ((Memory.readRange_eq_some_iff _ _ _ _).2 ⟨hlen, fun k hk => ?_⟩)
  have hk' : k < pay.length := hlen ▸ hk
  exact (h k hk').trans (List.getElem?_eq_getElem hk').symm

/-- With RAW_LEN 0 no SRC byte is read, wherever RAW_OFF points. -/
theorem exec_pktRaw_of_zero (role : BitVec 2) (h : s.rawLen = 0) :
    exec (.pktRaw role) s = .next (rawPacket role [] s) := by
  have hcount : s.rawCount = 0 := by simp [State.rawCount, h]
  have hoff := s.rawOff.isLt
  exact exec_pktRaw_of_written role (by omega) hcount.symm nofun

/-- A role as a command operand has 22 zero bits above it (30_encoding.md R66). -/
theorem append_setWidth_role (opc : BitVec 8) (role : BitVec 2) : opc ++ role.setWidth 24 = opc ++ (0#22 ++ role) := by
  rw [BitVec.setWidth_eq_append (show 2 ≤ 24 by decide)]
  rfl

end pktRaw

/-- Settles O22: the three outcomes; the empty payload and the one-byte example are packets whose other bytes are padding. -/
theorem pktRawSerializesRange : Obligations.PktRawSerializesRange := by
  refine ⟨fun s role pay hr => exec_pktRaw_of_written role hr, fun s role => exec_pktRaw_of_outOfRange role,
    fun s role k hr => exec_pktRaw_of_unwritten role hr, fun s role hzero => ?empty, fun s hoff hlen hsrc => ?oneByte,
    append_setWidth_role 0x31, fun arg => ?decoded⟩
  case empty =>
    exact ⟨_, exec_pktRaw_of_zero role hzero, rfl, rfl, rfl, fun k hk => encodePacket_getElem_padding _ _ [] k hk k.zero_le⟩
  case oneByte =>
    have hcount : s.rawCount = 1 := by simp [State.rawCount, hlen, Config.payloadMax]
    have hexec : exec (.pktRaw 1) s = .next (rawPacket 1 [0x41] s) := by
      refine exec_pktRaw_of_written 1 (by simp [hoff, hcount]) hcount.symm fun k hk => ?_
      obtain rfl : k = 0 := by simpa using hk
      simpa [hoff] using hsrc
    refine ⟨_, hexec, ?_, rfl, rfl, rfl, fun k hk => ?_⟩
    · simp only [readReg, rawPacket, succeed_pktInfo, storePacket_pktInfo, hcount]
      decide
    · simp only [show 3 + k = 2 + (k + 1) by omega]
      exact encodePacket_getElem_padding _ _ [0x41] (k + 1) (by omega) (Nat.le_add_left 1 k)
  case decoded =>
    rw [BitVec.setWidth_eq_extractLsb' (show 2 ≤ 24 by decide)]
    exact decode_byte_append_of_lowMask (o := .pktRaw) (w := 2) rfl

/-! What every packet that a command leaves keeps (43_packet.md R95). -/

section built
variable {s t : State}

theorem raiseCmdError_errCode_ne_zero (e : CmdError) (s : State) : (raiseCmdError e s).errCode ≠ 0 := by
  have hcode : e.code ≠ 0 := by cases e <;> decide
  exact hcode

/-- The payload of a frame of any index and length is its data, with the header before it in frame 1 and in a SINGLE plan. -/
theorem frameGeom_payload (i n : Nat) :
    ((frameGeom i n).dlen ≤ 163 ∧ (frameGeom i n).plen = 55 + (frameGeom i n).dlen) ∨
    (i ≠ 1 ∧ (frameGeom i n).dlen ≤ 219 ∧ (frameGeom i n).plen = (frameGeom i n).dlen) := by
  rcases le_or_gt n 163 with hsingle | hmulti
  · rw [frameGeom_single i hsingle]
    exact .inl ⟨hsingle, rfl⟩
  · by_cases hi : i = 1
    · rw [hi, frameGeom_first hmulti]
      exact .inl ⟨Nat.le_refl 163, rfl⟩
    · rw [frameGeom_later hmulti hi]
      exact .inr ⟨hi, Nat.min_le_left _ _, rfl⟩

theorem frameGeom_plen_le (i n : Nat) : (frameGeom i n).plen ≤ 219 := by
  rcases frameGeom_payload i n with ⟨hdata, hlen⟩ | ⟨-, hdata, hlen⟩ <;> omega

theorem framePayload_first (hdr : Vector (BitVec 8) 55) (data : List (BitVec 8)) :
    framePayload 1 hdr data = hdr.toList ++ data := rfl

theorem framePayload_later {i : BitVec 16} (hdr : Vector (BitVec 8) 55) (data : List (BitVec 8)) (h : i ≠ 1) :
    framePayload i hdr data = data := if_neg h

/-- The payload has at most the geometry's length; it has less where a SINGLE plan is asked for a later frame, which has no
header (log 14). -/
theorem framePayload_length_le {i : BitVec 16} {n : Nat} {data : List (BitVec 8)} (hdr : Vector (BitVec 8) 55)
    (h : data.length = (frameGeom i.toNat n).dlen) :
    (framePayload i hdr data).length ≤ (frameGeom i.toNat n).plen := by
  by_cases hi : i = 1
  · subst hi
    obtain ⟨-, hlen⟩ | ⟨hne, -⟩ := frameGeom_payload (1 : BitVec 16).toNat n
    · rw [framePayload_first, List.length_append, Vector.length_toList, h, hlen]
    · exact absurd rfl hne
  · rw [framePayload_later hdr data hi]
    rcases frameGeom_payload i.toNat n with ⟨-, hlen⟩ | ⟨-, -, hlen⟩ <;> omega

/-- A packet stored with a payload no longer than its PI_PAYLOAD_LEN is well formed. -/
theorem packetInv_succeed_storePacket (index : BitVec 16) (role : BitVec 2) {n : Nat} {pay : List (BitVec 8)} (s : State)
    (hpay : pay.length ≤ n) (hn : n ≤ 219) :
    (succeed (storePacket (encodePacket Config.typeTag (roleByte role) pay)
      { index := index, payloadLen := BitVec.ofNat 8 n, role := role } s)).packetInv := by
  intro _
  have hlen : (BitVec.ofNat 8 n).toNat = n := toNat_ofNat_length hn
  exact ⟨rfl, rfl, hlen.trans_le hn,
    fun k hk hge => encodePacket_getElem_padding _ _ pay k hk (hpay.trans (hlen.symm.trans_le hge))⟩

theorem builtPacket_packetInv {index : BitVec 16} {data : List (BitVec 8)}
    (h : data.length = (frameGeom index.toNat s.fileLen).dlen) : (builtPacket index data s).packetInv :=
  packetInv_succeed_storePacket index _ _
    (framePayload_length_le s.hdrbuf h) (frameGeom_plen_le _ _)

theorem rawPacket_packetInv (role : BitVec 2) {pay : List (BitVec 8)} (h : pay.length = s.rawCount) :
    (rawPacket role pay s).packetInv :=
  packetInv_succeed_storePacket 0 role s h.le (Nat.min_le_right _ _)

/-- A packet command that raises nothing leaves a well-formed packet marked valid. -/
theorem execPktBuild_packetInv {index : BitVec 16} (h : execPktBuild index s = .next t) (hok : t.errCode = 0) :
    t.pktValid = true ∧ t.packetInv := by
  obtain ⟨-, rfl⟩ | ⟨-, -, rfl⟩ | ⟨-, -, -, -, rfl⟩ | ⟨-, -, -, data, hdata, rfl⟩ := execPktBuild_next h
  · exact absurd hok (raiseCmdError_errCode_ne_zero _ _)
  · exact absurd hok (raiseCmdError_errCode_ne_zero _ _)
  · exact absurd hok (raiseCmdError_errCode_ne_zero _ _)
  · exact ⟨rfl, builtPacket_packetInv (Memory.readRange_length hdata)⟩

theorem execPktRaw_packetInv {role : BitVec 2} (h : execPktRaw role s = .next t) (hok : t.errCode = 0) :
    t.pktValid = true ∧ t.packetInv := by
  obtain ⟨-, rfl⟩ | ⟨-, pay, hpay, rfl⟩ := execPktRaw_next h
  · exact absurd hok (raiseCmdError_errCode_ne_zero _ _)
  · exact ⟨rfl, rawPacket_packetInv role (Memory.readRange_length hpay)⟩

/-- A role byte is a role code (00_scope.md R10). -/
theorem roleByte_le (role : BitVec 2) : (roleByte role).toNat ≤ 3 := by
  have hlt := role.isLt
  rw [roleByte, BitVec.toNat_setWidth_of_le (by decide)]
  omega

end built

/-- Settles O23: each command leaves a packet that meets `State.packetInv`, and `encodePacket_append_zero` hides the length. -/
theorem builtPacketsAreWellFormed : Obligations.BuiltPacketsAreWellFormed := by
  refine ⟨fun s t i hi h hok => ?_, fun role pay _ => (encodePacket_append_zero Config.typeTag role pay).symm⟩
  have hbuilt : t.pktValid = true ∧ t.packetInv := by
    obtain ⟨index, rfl⟩ | ⟨role, rfl⟩ := hi
    · exact execPktBuild_packetInv h hok
    · exact execPktRaw_packetInv h hok
  obtain ⟨hvalid, hinv⟩ := hbuilt
  obtain ⟨htag, hrole, -, hpad⟩ := hinv hvalid
  exact ⟨Vector.length_toList, htag, hrole, hrole ▸ roleByte_le _, hpad⟩

end Sys2Proof.Machine
end

-- ==== Control family (44_control.md): NOP and SOFT_RESET ====
section
/-! The obligations of 44_control.md: NOP (R96), SOFT_RESET (R97), and that no other command clears ERR_STICKY. -/

namespace Sys2Proof.Machine

/-! What the register port reads after SOFT_RESET (44_control.md R97, 10_state.md R17 to R36). -/

section softReset
variable (s : State)

theorem exec_softReset : exec .softReset s = .next (succeed (resetExceptSrc s)) := rfl

/-- The reset values of the register map: all 0 but ID and CRC_STATE, and so CRC_OUT, the complement of CRC_STATE, is 0 too. -/
theorem readReg_reset (r : Reg) :
    readReg State.reset r = if r = .id then 0x42535231 else if r = .crcState then 0xFFFF else 0 := by
  cases r <;> rfl

/-- No register shows SRC or the host's own fields, the only ones that SOFT_RESET keeps. -/
theorem readReg_softReset (r : Reg) : readReg (succeed (resetExceptSrc s)) r = readReg State.reset r := by
  cases r <;> rfl

end softReset

/-! How a command ends (30_encoding.md R63, 60_exceptions.md R99). -/

section ending
variable {s t : State} {i : Instr}

/-- A command other than SOFT_RESET reports success and leaves ERR_STICKY alone, or changes nothing but to raise its error. -/
theorem exec_next_of_ne_softReset (hi : i ≠ .softReset) (h : exec i s = .next t) :
    (t.errCode = 0 ∧ t.errSticky = s.errSticky) ∨ ∃ e, t = raiseCmdError e s := by
  cases i with
  | nop => cases h; exact .inl ⟨rfl, rfl⟩
  | crcInit => cases h; exact .inl ⟨rfl, rfl⟩
  | crcByte b => cases h; exact .inl ⟨rfl, rfl⟩
  | fnClear => cases h; exact .inl ⟨rfl, rfl⟩
  | fnPush b =>
    obtain ⟨_, rfl⟩ | ⟨-, rfl⟩ := execFnPush_next h
    · exact .inl ⟨rfl, rfl⟩
    · exact .inl ⟨rfl, rfl⟩
  | hdrBuild =>
    obtain ⟨-, herr⟩ | ⟨-, rfl⟩ := execHdrBuild_next h
    · exact .inr ⟨_, herr⟩
    · exact .inl ⟨rfl, rfl⟩
  | plan =>
    obtain ⟨-, herr⟩ | ⟨-, herr⟩ | ⟨-, -, rfl⟩ := execPlan_next h
    · exact .inr ⟨_, herr⟩
    · exact .inr ⟨_, herr⟩
    · exact .inl ⟨rfl, rfl⟩
  | frameInfo index =>
    obtain ⟨-, herr⟩ | ⟨-, -, herr⟩ | ⟨-, -, rfl⟩ := execFrameInfo_next h
    · exact .inr ⟨_, herr⟩
    · exact .inr ⟨_, herr⟩
    · exact .inl ⟨rfl, rfl⟩
  | pktBuild index =>
    obtain ⟨-, herr⟩ | ⟨-, -, herr⟩ | ⟨-, -, -, -, herr⟩ | ⟨-, -, -, data, -, rfl⟩ := execPktBuild_next h
    · exact .inr ⟨_, herr⟩
    · exact .inr ⟨_, herr⟩
    · exact .inr ⟨_, herr⟩
    · exact .inl ⟨rfl, rfl⟩
  | pktRaw role =>
    obtain ⟨-, herr⟩ | ⟨-, pay, -, rfl⟩ := execPktRaw_next h
    · exact .inr ⟨_, herr⟩
    · exact .inl ⟨rfl, rfl⟩
  | softReset => exact absurd rfl hi

/-- ERR_STICKY outlives every command but SOFT_RESET (60_exceptions.md R101). -/
theorem exec_keeps_errSticky (hi : i ≠ .softReset) (h : exec i s = .next t) (hs : s.errSticky = true) :
    t.errSticky = true := by
  obtain ⟨-, hsame⟩ | ⟨e, rfl⟩ := exec_next_of_ne_softReset hi h
  · exact hsame.trans hs
  · exact raiseCmdError_errSticky s e

end ending

/-- Settles O27: a register reads as it does at reset, and a command that clears ERR_STICKY is SOFT_RESET by
`exec_keeps_errSticky`. -/
theorem softResetKeepsOnlySrc : Obligations.SoftResetKeepsOnlySrc := by
  have hdecode (arg : BitVec 24) : decode (0xFF#8 ++ arg) = if arg = 0 then .ok .softReset else .error .badArg :=
    decode_byte_append_of_noArg (o := .softReset) rfl
  refine ⟨fun s => ?reset, fun s t i h hset hclear => ?cleared, rfl, hdecode, fun s arg harg => ?badArg⟩
  case reset =>
    exact ⟨_, exec_softReset s, fun r => (readReg_softReset s r).trans (readReg_reset r), rfl, rfl, rfl, rfl, rfl⟩
  case cleared =>
    by_contra hi
    have hkept : t.errSticky = true := exec_keeps_errSticky hi h hset
    exact Bool.false_ne_true (hclear.symm.trans hkept)
  case badArg => exact engineStep_of_error ((hdecode arg).trans (if_neg harg)) s

theorem exec_nop (s : State) : exec .nop s = .next { s with errCode := 0 } := rfl

/-- Settles O26: NOP is `exec_nop`, which has no part in ERR_STICKY. -/
theorem nopReportsSuccessOnly : Obligations.NopReportsSuccessOnly :=
  ⟨exec_nop, fun s _ hsticky => ⟨_, exec_nop s, rfl, hsticky⟩, rfl,
    fun _ => decode_byte_append_of_noArg (o := .nop) rfl⟩

end Sys2Proof.Machine
end

-- ==== Exception family (60_exceptions.md): command errors, their causes and ERR_STICKY ====
section
/-! The obligations of 60_exceptions.md about command errors: the cause of each ERR_CODE value (R98), what a failed command leaves
(R99), and what sets and clears ERR_STICKY (R101). -/

namespace Sys2Proof

/-- The decoder reports an error for its own reason only: an unassigned opcode or a reserved ARG bit (30_encoding.md R67, R68). -/
theorem decode_error_cases {w : BitVec 32} {e : DecodeError} (h : decode w = .error e) :
    (e = .illegalCmd ∧ Opcode.ofByte (opcField w) = none) ∨
    (e = .badArg ∧ ∃ o, Opcode.ofByte (opcField w) = some o ∧ argField w &&& ~~~o.argMask ≠ 0) := by
  cases hopc : Opcode.ofByte (opcField w) with
  | none =>
    rw [decode_of_unassigned hopc] at h
    cases h
    exact .inl ⟨rfl, rfl⟩
  | some o =>
    have hbyte : o.byte = opcField w := Opcode.ofByte_eq_some_iff.1 hopc
    by_cases harg : argField w &&& ~~~o.argMask = 0
    · rw [decode_of_legal (word_and_mask_eq_pattern_iff.2 ⟨hbyte, harg⟩)] at h
      cases h
    · rw [decode_of_reserved hbyte harg] at h
      cases h
      exact .inr ⟨rfl, o, rfl, harg⟩

theorem unassigned_of_decode_illegalCmd {w : BitVec 32} (h : decode w = .error .illegalCmd) :
    Opcode.ofByte (opcField w) = none := by
  obtain ⟨-, hopc⟩ | ⟨hne, -⟩ := decode_error_cases h
  · exact hopc
  · cases hne

theorem reserved_of_decode_badArg {w : BitVec 32} (h : decode w = .error .badArg) :
    ∃ o, Opcode.ofByte (opcField w) = some o ∧ argField w &&& ~~~o.argMask ≠ 0 := by
  obtain ⟨hne, -⟩ | ⟨-, hreserved⟩ := decode_error_cases h
  · cases hne
  · exact hreserved

namespace Machine

/-! The error codes (60_exceptions.md R98). -/

theorem CmdError.code_injective : Function.Injective CmdError.code := by
  intro e e'
  cases e <;> cases e' <;> decide

theorem CmdError.code_le (e : CmdError) : e.code.toNat ≤ 7 := by cases e <;> decide

/-- The row of 60_exceptions.md R98 for each error: the decoder's answers it can come from, and its cause in the state before. -/
def CmdError.causedBy (decoded : Except DecodeError Instr) (s : State) : CmdError → Prop
  | .emptyFile => decoded = .ok .plan ∧ s.fileLen = 0
  | .sizeLimit => (decoded = .ok .plan ∨ decoded = .ok .hdrBuild) ∧ Config.sizeMax < s.fileLen
  | .notReady =>
    ((∃ i, decoded = .ok (.frameInfo i) ∨ decoded = .ok (.pktBuild i)) ∧ s.plan.mode = 0) ∨
    (decoded = .ok (.pktBuild 1) ∧ s.hdrValid = false)
  | .badIndex => ∃ i, (decoded = .ok (.frameInfo i) ∨ decoded = .ok (.pktBuild i)) ∧
      (i = 0 ∨ s.plan.frameCount.toNat < i.toNat)
  | .illegalCmd => decoded = .error .illegalCmd
  | .badArg => decoded = .error .badArg
  | .srcRange => (∃ role, decoded = .ok (.pktRaw role)) ∧ Config.srcBytes < s.rawOff.toNat + s.rawCount

theorem causedBy_takeCommand {decoded : Except DecodeError Instr} {s : State} {e : CmdError} :
    e.causedBy decoded (takeCommand s) ↔ e.causedBy decoded s := by
  cases e <;> rfl

theorem causedBy_ofDecode (e : DecodeError) (s : State) : (CmdError.ofDecode e).causedBy (.error e) s := by
  cases e <;> rfl

/-! How a command and the engine step end (30_encoding.md R63, 60_exceptions.md R99). -/

section ending
variable {s t : State} {w : BitVec 32}

/-- A command does nothing but raise an error whose cause is met, or it reports success and never fills the latch. -/
theorem exec_next_cases {i : Instr} (h : exec i s = .next t) :
    (∃ e : CmdError, e.causedBy (.ok i) s ∧ t = raiseCmdError e s) ∨
    (t.errCode = 0 ∧ (t.pending = s.pending ∨ t.pending = none)) := by
  cases i with
  | nop => cases h; exact .inr ⟨rfl, .inl rfl⟩
  | crcInit => cases h; exact .inr ⟨rfl, .inl rfl⟩
  | crcByte b => cases h; exact .inr ⟨rfl, .inl rfl⟩
  | fnClear => cases h; exact .inr ⟨rfl, .inl rfl⟩
  | fnPush b =>
    obtain ⟨_, rfl⟩ | ⟨-, rfl⟩ := execFnPush_next h
    · exact .inr ⟨rfl, .inl rfl⟩
    · exact .inr ⟨rfl, .inl rfl⟩
  | hdrBuild =>
    obtain ⟨hsize, herr⟩ | ⟨-, rfl⟩ := execHdrBuild_next h
    · exact .inl ⟨.sizeLimit, ⟨.inr rfl, hsize⟩, herr⟩
    · exact .inr ⟨rfl, .inl rfl⟩
  | plan =>
    obtain ⟨hempty, herr⟩ | ⟨hsize, herr⟩ | ⟨-, -, rfl⟩ := execPlan_next h
    · exact .inl ⟨.emptyFile, ⟨rfl, hempty⟩, herr⟩
    · exact .inl ⟨.sizeLimit, ⟨.inl rfl, hsize⟩, herr⟩
    · exact .inr ⟨rfl, .inl rfl⟩
  | frameInfo i =>
    obtain ⟨hmode, herr⟩ | ⟨-, hindex, herr⟩ | ⟨-, -, rfl⟩ := execFrameInfo_next h
    · exact .inl ⟨.notReady, .inl ⟨⟨i, .inl rfl⟩, hmode⟩, herr⟩
    · exact .inl ⟨.badIndex, ⟨i, .inl rfl, indexOutOfPlan_iff.1 hindex⟩, herr⟩
    · exact .inr ⟨rfl, .inl rfl⟩
  | pktBuild i =>
    obtain ⟨hmode, herr⟩ | ⟨-, hindex, herr⟩ | ⟨-, -, rfl, hhdr, herr⟩ | ⟨-, -, -, data, -, rfl⟩ := execPktBuild_next h
    · exact .inl ⟨.notReady, .inl ⟨⟨i, .inr rfl⟩, hmode⟩, herr⟩
    · exact .inl ⟨.badIndex, ⟨i, .inr rfl, indexOutOfPlan_iff.1 hindex⟩, herr⟩
    · exact .inl ⟨.notReady, .inr ⟨rfl, hhdr⟩, herr⟩
    · exact .inr ⟨rfl, .inl rfl⟩
  | pktRaw role =>
    obtain ⟨hrange, herr⟩ | ⟨-, pay, -, rfl⟩ := execPktRaw_next h
    · exact .inl ⟨.srcRange, ⟨⟨role, rfl⟩, hrange⟩, herr⟩
    · exact .inr ⟨rfl, .inl rfl⟩
  | softReset => cases h; exact .inr ⟨rfl, .inr rfl⟩

/-- The engine step ends in an error whose cause is met, or in success, and leaves the latch empty either way. -/
theorem engineStep_next_cases (h : engineStep w s = .next t) :
    (∃ e : CmdError, e.causedBy (decode w) s ∧ t = raiseCmdError e (takeCommand s)) ∨
    (t.errCode = 0 ∧ t.pending = none) := by
  cases hd : decode w with
  | error e =>
    rw [engineStep_of_error hd] at h
    cases h
    exact .inl ⟨_, causedBy_ofDecode e s, rfl⟩
  | ok i =>
    rw [engineStep_of_ok hd] at h
    obtain ⟨e, hcause, herr⟩ | ⟨hok, hpending⟩ := exec_next_cases h
    · exact .inl ⟨e, causedBy_takeCommand.1 hcause, herr⟩
    · exact .inr ⟨hok, hpending.elim id id⟩

/-- 10_state.md R42: the engine step always empties the latch. -/
theorem engineStep_pending (h : engineStep w s = .next t) : t.pending = none := by
  obtain ⟨e, -, rfl⟩ | ⟨-, hpending⟩ := engineStep_next_cases h
  · rfl
  · exact hpending

/-- 60_exceptions.md R98: an engine step that leaves the code of an error met the cause of that error. -/
theorem causedBy_of_errCode (h : engineStep w s = .next t) (e : CmdError) (hcode : t.errCode = e.code) :
    e.causedBy (decode w) s := by
  obtain ⟨raised, hcause, rfl⟩ | ⟨hok, -⟩ := engineStep_next_cases h
  · obtain rfl : raised = e := CmdError.code_injective hcode
    exact hcause
  · exact absurd (hcode.symm.trans hok) (raiseCmdError_errCode_ne_zero e s)

end ending

theorem status_busy (s : State) : s.status.getLsbD 0 = s.busy := getLsbD_append_ofBool_zero _ _

/-- Settles O36: what is raised is `raiseCmdError`, by `exec_next_cases` for a command and by `engineStep_next_cases` for a word. -/
theorem failedCommandHasNoPartialEffect : Obligations.FailedCommandHasNoPartialEffect := by
  refine ⟨fun s t i h hcode => ?command, fun s t w h => ?word⟩
  case command =>
    obtain ⟨e, -, rfl⟩ | ⟨hok, -⟩ := exec_next_cases h
    · rfl
    · exact absurd hok hcode
  case word =>
    have hpending : t.pending = none := engineStep_pending h
    have hbusy : t.busy = false := by rw [busy_eq, hpending]; rfl
    refine ⟨hpending, (status_busy t).trans hbusy, fun v => ⟨_, hostWrite_register .cmd v hbusy, rfl, rfl⟩, fun hcode => ?_⟩
    obtain ⟨e, -, rfl⟩ | ⟨hok, -⟩ := engineStep_next_cases h
    · rfl
    · exact absurd hok hcode

/-- Settles O37: each clause is `causedBy_of_errCode` for its error, read off the word for the decoder's two. -/
theorem errorCodesHaveTheirCauses : Obligations.ErrorCodesHaveTheirCauses := by
  intro s t w h
  have hcause : ∀ e : CmdError, t.errCode = e.code → e.causedBy (decode w) s := causedBy_of_errCode h
  refine ⟨?bound, hcause .emptyFile, hcause .sizeLimit, hcause .notReady, hcause .badIndex,
    fun hcode => unassigned_of_decode_illegalCmd (hcause .illegalCmd hcode),
    fun hcode => reserved_of_decode_badArg (hcause .badArg hcode), hcause .srcRange⟩
  case bound =>
    obtain ⟨e, -, rfl⟩ | ⟨hok, -⟩ := engineStep_next_cases h
    · exact e.code_le
    · rw [hok]; decide

/-! What the host does to ERR_STICKY (60_exceptions.md R101). -/

section sticky
variable {s t : State} {a : Addr} {size : Nat} {v : BitVec 32}

/-- But for STATUS, a register write leaves ERR_STICKY alone. -/
theorem writeReg_errSticky {r : Reg} (v : BitVec 32) (s : State) (hr : r ≠ .status) :
    (writeReg v s r).errSticky = s.errSticky := by
  cases r with
  | status => exact absurd rfl hr
  | _ => rfl

theorem writeReg_status_clears (s : State) (hv : v.getLsbD 7 = true) :
    writeReg v s .status = { s with errSticky := false } := by
  simp [writeReg, writeStatus, hv]

/-- The only host write that clears ERR_STICKY is a 32-bit write to STATUS with bit 7 set (10_state.md R19). -/
theorem hostWrite_clears_errSticky (h : hostWrite a size v s = .ok t) (hset : s.errSticky = true)
    (hclear : t.errSticky = false) : a = Reg.status.offset ∧ size = 4 ∧ v.getLsbD 7 = true := by
  have hchanged : t.errSticky ≠ s.errSticky := by simp [hset, hclear]
  obtain ⟨hf, rfl | ⟨hreg, r, hr, rfl⟩ | ⟨-, rfl⟩⟩ := hostWrite_ok h
  · exact absurd rfl hchanged
  · by_cases hstatus : r = .status
    · subst hstatus
      obtain ⟨-, hsize, -, hbyte⟩ := hostFault_eq_none_iff.1 hf
      exact ⟨eq_offset_of_ofOffset hr, hsize.resolve_left fun hone => hbyte hone hreg,
        by simpa [writeReg, writeStatus, hset] using hclear⟩
    · exact absurd (writeReg_errSticky v s hstatus) hchanged
  · exact absurd rfl hchanged

/-- The host clears ERR_STICKY by a STATUS write with bit 7 set or by the reset input. -/
theorem hostStep_clears_errSticky (h : hostStep s = .next t) (hset : s.errSticky = true) (hclear : t.errSticky = false) :
    (∃ v rest, s.hostQueue = .write Reg.status.offset 4 v :: rest ∧ v.getLsbD 7 = true) ∨ s.resetAsserted := by
  have hchanged : t.errSticky ≠ s.errSticky := by simp [hset, hclear]
  obtain ⟨-, rfl⟩ | ⟨a, size, rest, x, -, -, rfl⟩ | ⟨a, size, v, rest, hq, hw⟩ | ⟨rest, -, ⟨-, rfl⟩ | ⟨-, rfl⟩⟩ |
    ⟨rest, hq, -⟩ := hostStep_next h
  · exact absurd rfl hchanged
  · exact absurd rfl hchanged
  · obtain ⟨rfl, rfl, hv⟩ := hostWrite_clears_errSticky hw hset hclear
    exact .inl ⟨v, rest, hq, hv⟩
  · exact absurd rfl hchanged
  · exact absurd rfl hchanged
  · exact .inr ⟨rest, hq⟩

end sticky

/-- Settles O38: of the engine's commands only SOFT_RESET clears ERR_STICKY, by `exec_keeps_errSticky`, and of the host's actions
only the two of `hostStep_clears_errSticky`. -/
theorem errStickyClearedOnlyThreeWays : Obligations.ErrStickyClearedOnlyThreeWays := by
  refine ⟨fun s t w h => ?written, fun s t h hset hclear => ?cleared, fun s v hbusy hv => ?byStatus,
    fun s => ⟨_, exec_softReset s, rfl⟩, fun s => rfl⟩
  case written =>
    obtain ⟨e, -, rfl⟩ | ⟨hok, -⟩ := engineStep_next_cases h
    · exact .inr ⟨e, rfl, rfl⟩
    · exact .inl hok
  case cleared =>
    obtain ⟨w, i, hp, -, hd, hexec⟩ | ⟨w, e, -, -, -, rfl⟩ | ⟨-, hhost⟩ := step_next h
    · by_cases hi : i = .softReset
      · subst hi
        exact .inr (.inl ⟨w, hp, hd⟩)
      · have hkept : t.errSticky = true := exec_keeps_errSticky hi hexec hset
        exact absurd (hkept.symm.trans hclear) (by decide)
    · cases hclear
    · exact (hostStep_clears_errSticky hhost hset hclear).imp_right .inr
  case byStatus =>
    rw [← writeReg_status_clears s hv]
    exact hostWrite_register .status v hbusy

end Machine
end Sys2Proof
end

-- ==== Hazard family (70_reset_and_hazards.md): a stale header or plan is caught ====
section
/-! The obligation of 70_reset_and_hazards.md about the invalidation hazard (R117): what PKT_BUILD answers when the plan or the
header it needs is gone, and the actions that take them away. -/

namespace Sys2Proof.Machine

/-! The two NOT_READY answers of PKT_BUILD (43_packet.md R91). -/

section notReady
variable {s : State}

theorem exec_pktBuild_of_noPlan {i : BitVec 16} (h : s.plan.mode = 0) :
    exec (.pktBuild i) s = .next (raiseCmdError .notReady s) := if_pos h

/-- Every plan of 10_state.md R43 counts frame 1: SINGLE has one frame, MULTI at least two, and there is no third mode. -/
theorem indexOutOfPlan_one (hinv : s.planInv) (hplanned : s.plan.mode ≠ 0) : s.indexOutOfPlan 1 = false := by
  obtain ⟨-, -, hsingle, hmulti, hno3, -⟩ := hinv
  have hmode : s.plan.mode = 1 ∨ s.plan.mode = 2 := by bv_omega
  have hcount : 1 ≤ s.plan.frameCount.toNat := by
    obtain h1 | h2 := hmode
    · rw [(hsingle h1).1]; decide
    · exact Nat.le_of_succ_le (hmulti h2).1
  exact Bool.eq_false_iff.2 fun hout => (indexOutOfPlan_iff.1 hout).elim (by decide) (Nat.not_lt.2 hcount)

/-- Frame 1 is refused with NOT_READY while no header is valid, plan or no plan: BAD_INDEX, which is checked between the two, does not
come up, by `indexOutOfPlan_one`. -/
theorem exec_pktBuild_one_of_noHeader (hinv : s.planInv) (hhdr : s.hdrValid = false) :
    exec (.pktBuild 1) s = .next (raiseCmdError .notReady s) := by
  by_cases hmode : s.plan.mode = 0
  · exact exec_pktBuild_of_noPlan hmode
  · have hin : ¬ s.indexOutOfPlan 1 = true := Bool.eq_false_iff.1 (indexOutOfPlan_one hinv hmode)
    exact (if_neg hmode).trans ((if_neg hin).trans (if_pos ⟨rfl, hhdr⟩))

end notReady

/-- A command that changes the name invalidates the header and leaves the plan and the length it was made for (41_header.md R78,
R80). -/
theorem exec_nameChange {s t : State} {i : Instr} (hi : i = .fnClear ∨ ∃ b, i = .fnPush b) (h : exec i s = .next t) :
    t.hdrValid = false ∧ t.plan = s.plan ∧ t.dataLen = s.dataLen := by
  obtain rfl | ⟨b, rfl⟩ := hi
  · cases h
    exact ⟨rfl, rfl, rfl⟩
  · obtain ⟨_, rfl⟩ | ⟨-, rfl⟩ := execFnPush_next h
    · exact ⟨rfl, rfl, rfl⟩
    · exact ⟨rfl, rfl, rfl⟩

/-- Settles O43: a DATA_LEN write leaves no plan, which every PKT_BUILD asks for first; a name change leaves no header but a plan that
still has frame 1, so PKT_BUILD of frame 1 gets as far as the header check. -/
theorem staleHeaderOrPlanIsCaught : Obligations.StaleHeaderOrPlanIsCaught := by
  refine ⟨fun s t v i h => ?dataLen, fun s t i hinv hi h => ?nameChange⟩
  case dataLen =>
    obtain ⟨-, rfl⟩ := hostWrite_dataLen_ok h
    exact ⟨rfl, rfl, exec_pktBuild_of_noPlan rfl⟩
  case nameChange =>
    obtain ⟨hhdr, hplan, hlen⟩ := exec_nameChange hi h
    exact ⟨hhdr, exec_pktBuild_one_of_noHeader (planInv_congr hplan hlen hinv) hhdr⟩

end Sys2Proof.Machine
end

-- ==== Round trip of the encoding (30_encoding.md): every command has one word ====
section
/-! The obligations of 30_encoding.md that tie the encoder to the decoder (R64 to R67): each inverts the other. -/

namespace Sys2Proof

/-! From a command to its word and back. -/

/-- Taking the low bits of a zero-extended operand gives the operand back. -/
theorem extractLsb'_setWidth_arg {w : Nat} (x : BitVec w) (h : w ≤ 24) : (x.setWidth 24).extractLsb' 0 w = x := by
  rw [← BitVec.setWidth_eq_extractLsb' h, BitVec.setWidth_setWidth_of_le x h, BitVec.setWidth_eq]

/-- No command sets an ARG bit that its opcode reserves (30_encoding.md R67). -/
theorem Instr.arg_and_not_argMask (i : Instr) : i.arg &&& ~~~i.opcode.argMask = 0 := by
  cases i with
  | nop => exact Laws.Encodable.nop.2
  | crcInit => exact Laws.Encodable.crcInit.2
  | crcByte byte => exact (Laws.Encodable.crcByte byte).2
  | fnClear => exact Laws.Encodable.fnClear.2
  | fnPush byte => exact (Laws.Encodable.fnPush byte).2
  | hdrBuild => exact Laws.Encodable.hdrBuild.2
  | plan => exact Laws.Encodable.plan.2
  | frameInfo index => exact (Laws.Encodable.frameInfo index).2
  | pktBuild index => exact (Laws.Encodable.pktBuild index).2
  | pktRaw role => exact (Laws.Encodable.pktRaw role).2
  | softReset => exact Laws.Encodable.softReset.2

/-- A command is its opcode with the operand its ARG holds (30_encoding.md R66). -/
theorem Instr.opcode_instr_arg (i : Instr) : i.opcode.instr i.arg = i := by
  cases i with
  | crcByte byte => exact congrArg Instr.crcByte (extractLsb'_setWidth_arg byte (by decide))
  | fnPush byte => exact congrArg Instr.fnPush (extractLsb'_setWidth_arg byte (by decide))
  | frameInfo index => exact congrArg Instr.frameInfo (extractLsb'_setWidth_arg index (by decide))
  | pktBuild index => exact congrArg Instr.pktBuild (extractLsb'_setWidth_arg index (by decide))
  | pktRaw role => exact congrArg Instr.pktRaw (extractLsb'_setWidth_arg role (by decide))
  | _ => rfl

theorem decode_encode (i : Instr) : decode (encode i) = .ok i := by
  rw [encode, decode_byte_append, if_pos i.arg_and_not_argMask, i.opcode_instr_arg]

/-- Settles O28: the word has no reserved ARG bit, so it decodes to its opcode's command, `Instr.opcode_instr_arg`. -/
theorem decodeInvertsEncode : Obligations.DecodeInvertsEncode := fun i _ => decode_encode i

/-! From a word to its command and back. -/

theorem Opcode.opcode_instr (o : Opcode) (arg : BitVec 24) : (o.instr arg).opcode = o := by cases o <;> rfl

/-- An ARG below `2 ^ w` is its low `w` bits, zero-extended. -/
theorem setWidth_extractLsb'_arg {w : Nat} {arg : BitVec 24} (hw : w ≤ 24) (h : arg.toNat < 2 ^ w) :
    (arg.extractLsb' 0 w).setWidth 24 = arg := by
  apply BitVec.eq_of_toNat_eq
  rw [← BitVec.setWidth_eq_extractLsb' hw, BitVec.toNat_setWidth_of_le hw, BitVec.toNat_setWidth, Nat.mod_eq_of_lt h]

/-- An operand taken from an ARG without reserved bits is the whole of it (30_encoding.md R66, R67). -/
theorem Opcode.arg_instr {o : Opcode} {arg : BitVec 24} (h : arg &&& ~~~o.argMask = 0) : (o.instr arg).arg = arg := by
  have hoperand {w : Nat} (hw : w ≤ 24) (hmask : o.argMask.toNat = 2 ^ w - 1) :
      (arg.extractLsb' 0 w).setWidth 24 = arg :=
    setWidth_extractLsb'_arg hw ((and_not_lowMask_eq_zero_iff hmask).1 h)
  have hnone (hmask : o.argMask.toNat = 2 ^ 0 - 1) : 0 = arg := by
    have hlt : arg.toNat < 1 := (and_not_lowMask_eq_zero_iff hmask).1 h
    exact BitVec.eq_of_toNat_eq (Nat.lt_one_iff.1 hlt).symm
  cases o with
  | crcByte => exact hoperand (w := 8) (by decide) rfl
  | fnPush => exact hoperand (w := 8) (by decide) rfl
  | frameInfo => exact hoperand (w := 16) (by decide) rfl
  | pktBuild => exact hoperand (w := 16) (by decide) rfl
  | pktRaw => exact hoperand (w := 2) (by decide) rfl
  | nop => exact hnone rfl
  | crcInit => exact hnone rfl
  | fnClear => exact hnone rfl
  | hdrBuild => exact hnone rfl
  | plan => exact hnone rfl
  | softReset => exact hnone rfl

/-- Settles O29: a word that decodes has an assigned opcode and no reserved ARG bit, and the encoder writes both fields back. -/
theorem encodeInvertsDecode : Obligations.EncodeInvertsDecode := by
  intro w i h
  obtain ⟨o, hlegal, rfl⟩ := legal_of_decode_ok h
  obtain ⟨hopc, harg⟩ := word_and_mask_eq_pattern_iff.1 hlegal
  calc encode (o.instr (argField w))
    _ = o.byte ++ argField w := by rw [encode, o.opcode_instr, Opcode.arg_instr harg]
    _ = w := by rw [hopc, opcField_append_argField]

/-- Settles O33: each word is the encoding of its command, so `decode_encode` reads it. -/
theorem sampleWordsDecode : Obligations.SampleWordsDecode :=
  ⟨decode_encode .nop, decode_encode (.crcByte 0x54), decode_encode (.fnPush 0xE9), decode_encode (.frameInfo 9576),
    decode_encode (.pktBuild 3), decode_encode (.pktRaw 2), decode_encode .softReset⟩

end Sys2Proof
end

-- ==== Frames and invariants: what commands and host actions leave alone, and what every step keeps ====
section
/-! What each command leaves alone, which commands and host actions write which part of the block, and the invariants of the plan, the
FRM_ registers, the packet, ERR_CODE and SRC over every step. -/

namespace Sys2Proof.Machine

/-! The frame of each command (40_crc.md to 44_control.md): the state after is the state before with the command's own fields changed. -/

section frames
variable {s t : State}

theorem execNop_frame (h : exec .nop s = .next t) : t = { s with errCode := t.errCode } := by cases h; rfl

theorem exec_crc_frame {i : Instr} (hi : i = .crcInit ∨ ∃ b, i = .crcByte b) (h : exec i s = .next t) :
    t = { s with crcState := t.crcState, errCode := t.errCode } := by
  obtain rfl | ⟨b, rfl⟩ := hi
  · cases h; rfl
  · cases h; rfl

theorem exec_name_frame {i : Instr} (hi : i = .fnClear ∨ ∃ b, i = .fnPush b) (h : exec i s = .next t) :
    t = { s with fnbuf := t.fnbuf, fnLen := t.fnLen, fnTrunc := t.fnTrunc, hdrValid := t.hdrValid,
                 errCode := t.errCode } := by
  obtain rfl | ⟨b, rfl⟩ := hi
  · cases h; rfl
  · obtain ⟨_, rfl⟩ | ⟨-, rfl⟩ := execFnPush_next h
    · rfl
    · rfl

theorem execHdrBuild_frame (h : exec .hdrBuild s = .next t) :
    t = { s with hdrbuf := t.hdrbuf, fnCrc := t.fnCrc, crcState := t.crcState, hdrValid := t.hdrValid,
                 errCode := t.errCode, errSticky := t.errSticky } := by
  obtain ⟨-, rfl⟩ | ⟨-, rfl⟩ := execHdrBuild_next h
  · rfl
  · rfl

theorem execPlan_frame (h : exec .plan s = .next t) :
    t = { s with plan := t.plan, errCode := t.errCode, errSticky := t.errSticky } := by
  obtain ⟨-, rfl⟩ | ⟨-, rfl⟩ | ⟨-, -, rfl⟩ := execPlan_next h
  · rfl
  · rfl
  · rfl

theorem execFrameInfo_frame {i : BitVec 16} (h : exec (.frameInfo i) s = .next t) :
    t = { s with frame := t.frame, errCode := t.errCode, errSticky := t.errSticky } := by
  obtain ⟨-, rfl⟩ | ⟨-, -, rfl⟩ | ⟨-, -, rfl⟩ := execFrameInfo_next h
  · rfl
  · rfl
  · rfl

theorem execPktBuild_frame {i : BitVec 16} (h : exec (.pktBuild i) s = .next t) :
    t = { s with pktbuf := t.pktbuf, pktValid := t.pktValid, pktInfo := t.pktInfo, frame := t.frame,
                 errCode := t.errCode, errSticky := t.errSticky } := by
  obtain ⟨-, rfl⟩ | ⟨-, -, rfl⟩ | ⟨-, -, -, -, rfl⟩ | ⟨-, -, -, data, -, rfl⟩ := execPktBuild_next h
  · rfl
  · rfl
  · rfl
  · rfl

theorem execPktRaw_frame {role : BitVec 2} (h : exec (.pktRaw role) s = .next t) :
    t = { s with pktbuf := t.pktbuf, pktValid := t.pktValid, pktInfo := t.pktInfo,
                 errCode := t.errCode, errSticky := t.errSticky } := by
  obtain ⟨-, rfl⟩ | ⟨-, pay, -, rfl⟩ := execPktRaw_next h
  · rfl
  · rfl

/-- The fields that no command writes: SRC and the host's own (20_memory.md R55). -/
def State.uncommanded (s : State) : Memory × List HostAction × List HostValue × Nat :=
  (s.src, s.hostQueue, s.hostReads, s.cmdCount)

/-- No command, SOFT_RESET included, changes SRC or anything of the host's. -/
theorem exec_uncommanded {i : Instr} (h : exec i s = .next t) : t.uncommanded = s.uncommanded := by
  cases i with
  | nop => rw [execNop_frame h]; rfl
  | crcInit => rw [exec_crc_frame (.inl rfl) h]; rfl
  | crcByte b => rw [exec_crc_frame (.inr ⟨b, rfl⟩) h]; rfl
  | fnClear => rw [exec_name_frame (.inl rfl) h]; rfl
  | fnPush b => rw [exec_name_frame (.inr ⟨b, rfl⟩) h]; rfl
  | hdrBuild => rw [execHdrBuild_frame h]; rfl
  | plan => rw [execPlan_frame h]; rfl
  | frameInfo i => rw [execFrameInfo_frame h]; rfl
  | pktBuild i => rw [execPktBuild_frame h]; rfl
  | pktRaw role => rw [execPktRaw_frame h]; rfl
  | softReset => cases h; rfl

theorem exec_src {i : Instr} (h : exec i s = .next t) : t.src = s.src :=
  congrArg Prod.fst (exec_uncommanded h)

end frames

/-- Settles O53: one frame equation per command, and `exec_uncommanded` for all of them. -/
theorem commandFrames : Obligations.CommandFrames := by
  refine fun s t => ⟨fun i hi h => ?nop, fun i => exec_crc_frame, fun i => exec_name_frame, execHdrBuild_frame,
    execPlan_frame, fun i => execFrameInfo_frame, fun i => execPktBuild_frame, fun role => execPktRaw_frame,
    fun i h => ?all⟩
  case nop => subst hi; exact execNop_frame h
  case all =>
    have hsame := exec_uncommanded h
    simp only [State.uncommanded, Prod.mk.injEq] at hsame
    obtain ⟨hsrc, hhost⟩ := hsame
    exact ⟨fun x => by rw [hsrc], hhost⟩

/-! What one host action does to the block. -/

section agents
variable {s t : State}

/-- `s` with everything that belongs to the two agents rather than to the block taken from `u`: the host's own fields and the
command latch between host and engine. -/
def State.withAgentsOf (s u : State) : State := { s.withHostOf u with pending := u.pending }

/-- A host action moves the agents only, writes one register, stores to SRC or resets the block (00_scope.md R14). -/
theorem hostStep_effect (h : hostStep s = .next t) :
    t = s.withAgentsOf t ∨
    (∃ r v rest, t = writeReg v { s with hostQueue := rest } r) ∨
    (∃ a size v rest, s.hostQueue = .write a size v :: rest ∧ regionOf a = .src ∧ hostFault false a size s = none ∧
      t = { s with hostQueue := rest, src := writeSrc (srcOffset a) size v s.src }) ∨
    (∃ rest, s.hostQueue = .powerOn :: rest ∧ t = powerOnReset { s with hostQueue := rest }) := by
  obtain ⟨-, rfl⟩ | ⟨a, size, rest, x, -, -, rfl⟩ | ⟨a, size, v, rest, hq, hw⟩ | ⟨rest, -, ⟨-, rfl⟩ | ⟨-, rfl⟩⟩ | hreset :=
    hostStep_next h
  · exact .inl rfl
  · exact .inl rfl
  · obtain ⟨hf, rfl | ⟨-, r, -, rfl⟩ | ⟨hsrc, rfl⟩⟩ := hostWrite_ok hw
    · exact .inl rfl
    · exact .inr (.inl ⟨r, v, rest, rfl⟩)
    · exact .inr (.inr (.inl ⟨a, size, v, rest, hq, hsrc, hf, rfl⟩))
  · exact .inl rfl
  · exact .inl rfl
  · exact .inr (.inr (.inr hreset))

/-- An invariant of the block is kept by every step if every command, every error and every write of the host keeps it and the reset
state meets it. -/
theorem step_keeps {P : State → Prop} (hagents : ∀ s u : State, P s → P (s.withAgentsOf u))
    (hexec : ∀ (s t : State) (i : Instr), P s → exec i s = .next t → P t)
    (hraise : ∀ (s : State) (e : CmdError), P s → P (raiseCmdError e s))
    (hreg : ∀ (s : State) (r : Reg) (v : BitVec 32), P s → P (writeReg v s r))
    (hsrc : ∀ (s : State) (a : Addr) (size : Nat) (v : BitVec 32), regionOf a = .src → hostFault false a size s = none →
      P s → P { s with src := writeSrc (srcOffset a) size v s.src })
    (hreset : P State.reset) (hs : P s) (h : step s = .next t) : P t := by
  obtain ⟨w, i, -, -, -, hi⟩ | ⟨w, e, -, -, -, rfl⟩ | ⟨-, hhost⟩ := step_next h
  · exact hexec _ t i (hagents s (takeCommand s) hs) hi
  · exact hraise _ _ (hagents s (takeCommand s) hs)
  · obtain hidle | ⟨r, v, rest, rfl⟩ | ⟨a, size, v, rest, -, hregion, hf, rfl⟩ | ⟨rest, -, rfl⟩ := hostStep_effect hhost
    · rw [hidle]; exact hagents s t hs
    · exact hreg _ r v (hagents s { s with hostQueue := rest } hs)
    · exact hsrc { s with hostQueue := rest } a size v hregion hf (hagents s { s with hostQueue := rest } hs)
    · exact hagents State.reset (powerOnReset { s with hostQueue := rest }) hreset

end agents

/-! The plan and the FRM_ registers (10_state.md R19, R31 to R33). -/

/-- The plan is current and the FRM_ registers are in their ranges. -/
structure State.SequencerInv (s : State) : Prop where
  plan : s.currentPlanInv
  frame : s.frameInv

/-- The fields that `State.SequencerInv` reads. -/
def State.sequencerPart (s : State) : PlanRegs × BitVec 32 × FrameRegs := (s.plan, s.dataLen, s.frame)

section sequencer
variable {s t : State}

theorem frameInv_congr (hf : t.frame = s.frame) (h : s.frameInv) : t.frameInv := by
  simpa only [State.frameInv, hf] using h

theorem currentPlanInv_congr (hp : t.plan = s.plan) (hd : t.dataLen = s.dataLen) (h : s.currentPlanInv) :
    t.currentPlanInv := by
  simpa only [State.currentPlanInv, State.fileLen, hp, hd] using h

theorem State.SequencerInv.congr (hs : s.SequencerInv) (h : t.sequencerPart = s.sequencerPart) : t.SequencerInv := by
  simp only [State.sequencerPart, Prod.mk.injEq] at h
  obtain ⟨hplan, hlen, hframe⟩ := h
  exact ⟨currentPlanInv_congr hplan hlen hs.plan, frameInv_congr hframe hs.frame⟩

theorem reset_sequencerInv : State.reset.SequencerInv := ⟨.inl rfl, fun h => absurd rfl h⟩

/-- No planned frame starts later than the last one of a file of SIZE_MAX bytes, frame 9577 (10_state.md R31). -/
theorem frameGeom_off_le {n i : Nat} (hn : n ≤ 0x1FFFFF) (hlo : 1 ≤ i) (hhi : i ≤ frameCount n) :
    (frameGeom i n).off ≤ 2097088 := by
  have hmax : frameCount n ≤ 9577 := frameCount_le_max hn
  obtain ⟨-, -, hgeom⟩ | ⟨-, -, hgeom⟩ | ⟨-, -, hgeom⟩ | ⟨-, -, d, -, -, hgeom⟩ := frameGeom_cases hlo hhi
  · simp [hgeom]
  · simp [hgeom]
  · simp only [hgeom]; omega
  · simp only [hgeom]; omega

/-- A planned frame has data, and its payload is the data with the header before it in frame 1 only (42_sequencer.md R88). -/
theorem frameGeom_planned_lengths {n i : Nat} (hn : 1 ≤ n) (hlo : 1 ≤ i) (hhi : i ≤ frameCount n) :
    1 ≤ (frameGeom i n).dlen ∧ (frameGeom i n).plen = (if i = 1 then 55 else 0) + (frameGeom i n).dlen := by
  obtain ⟨-, hi, hgeom⟩ | ⟨-, hi, hgeom⟩ | ⟨hi, -, hgeom⟩ | ⟨hi, -, d, hd, -, hgeom⟩ := frameGeom_cases hlo hhi
  · rw [hgeom, if_pos hi]; exact ⟨hn, rfl⟩
  · rw [hgeom, if_pos hi]; exact ⟨by decide, rfl⟩
  · simp [hgeom, hi.ne']
  · simp [hgeom, hi.ne', hd]

/-- The FRM_ registers of a planned frame are in their ranges. -/
theorem frameInv_of_frameRegs {index : BitVec 16} {n : Nat} (hn : 1 ≤ n) (hmax : n ≤ 0x1FFFFF)
    (hlo : 1 ≤ index.toNat) (hhi : index.toNat ≤ frameCount n)
    (ht : t.frame = frameRegs index (frameGeom index.toNat n)) : t.frameInv := by
  obtain ⟨hdata, hpayload⟩ := frameGeom_planned_lengths hn hlo hhi
  obtain ⟨hdlen, hplen⟩ := frameGeom_lengths_le hlo hhi
  have hoff : (frameGeom index.toNat n).off ≤ 2097088 := frameGeom_off_le hmax hlo hhi
  have hoffReg : t.frame.dataOff.toNat = (frameGeom index.toNat n).off := by
    rw [ht]; exact (BitVec.toNat_ofNat _ _).trans (Nat.mod_eq_of_lt (by omega))
  have hdataReg : t.frame.dataLen.toNat = (frameGeom index.toNat n).dlen := by rw [ht]; exact toNat_ofNat_length hdlen
  have hpayReg : t.frame.payloadLen.toNat = (frameGeom index.toNat n).plen := by rw [ht]; exact toNat_ofNat_length hplen
  have hone : t.frame.index = 1 ↔ index.toNat = 1 := by rw [ht]; exact BitVec.toNat_inj.symm
  intro _
  simp only [hoffReg, hdataReg, hpayReg, hone]
  exact ⟨hdata, hdlen, hpayload, hplen, hoff⟩

/-- With a current plan, an index in the plan is one of the file's frames. -/
theorem planned_of_indexInPlan {index : BitVec 16} (hs : s.currentPlanInv) (hmode : s.plan.mode ≠ 0)
    (hi : s.indexOutOfPlan index = false) :
    1 ≤ s.fileLen ∧ s.fileLen ≤ 0x1FFFFF ∧ 1 ≤ index.toNat ∧ index.toNat ≤ frameCount s.fileLen := by
  obtain hnone | ⟨hlo, hhi, hplan⟩ := hs
  · exact absurd (congrArg PlanRegs.mode hnone) hmode
  · have hin := mt indexOutOfPlan_iff.2 (Bool.eq_false_iff.1 hi)
    rw [not_or, Nat.not_lt, hplan, planRegs_frameCount_toNat hhi] at hin
    obtain ⟨hne, hle⟩ := hin
    exact ⟨hlo, hhi, Nat.pos_of_ne_zero fun h => hne (BitVec.eq_of_toNat_eq h), hle⟩

/-- Selecting a frame of a current plan keeps the registers in range (42_sequencer.md R89, 43_packet.md R91). -/
theorem sequencerInv_of_frameRegs {index : BitVec 16} (hs : s.SequencerInv) (hmode : s.plan.mode ≠ 0)
    (hi : s.indexOutOfPlan index = false) (hplan : t.plan = s.plan) (hlen : t.dataLen = s.dataLen)
    (ht : t.frame = frameRegs index (frameGeom index.toNat s.fileLen)) : t.SequencerInv := by
  obtain ⟨hn, hmax, hlo, hhi⟩ := planned_of_indexInPlan hs.plan hmode hi
  exact ⟨currentPlanInv_congr hplan hlen hs.plan, frameInv_of_frameRegs hn hmax hlo hhi ht⟩

theorem execPlan_keeps_sequencerInv (hs : s.SequencerInv) (h : execPlan s = .next t) : t.SequencerInv := by
  obtain ⟨-, rfl⟩ | ⟨-, rfl⟩ | ⟨hlo, hhi, rfl⟩ := execPlan_next h
  · exact hs.congr rfl
  · exact hs.congr rfl
  · exact ⟨.inr ⟨hlo, hhi, rfl⟩, frameInv_congr rfl hs.frame⟩

theorem execFrameInfo_keeps_sequencerInv {index : BitVec 16} (hs : s.SequencerInv)
    (h : execFrameInfo index s = .next t) : t.SequencerInv := by
  obtain ⟨-, rfl⟩ | ⟨-, -, rfl⟩ | ⟨hmode, hi, rfl⟩ := execFrameInfo_next h
  · exact hs.congr rfl
  · exact hs.congr rfl
  · exact sequencerInv_of_frameRegs hs hmode hi rfl rfl rfl

theorem execPktBuild_keeps_sequencerInv {index : BitVec 16} (hs : s.SequencerInv)
    (h : execPktBuild index s = .next t) : t.SequencerInv := by
  obtain ⟨-, rfl⟩ | ⟨-, -, rfl⟩ | ⟨-, -, -, -, rfl⟩ | ⟨hmode, hi, -, data, -, rfl⟩ := execPktBuild_next h
  · exact hs.congr rfl
  · exact hs.congr rfl
  · exact hs.congr rfl
  · exact sequencerInv_of_frameRegs hs hmode hi rfl rfl rfl

theorem exec_keeps_sequencerInv {i : Instr} (hs : s.SequencerInv) (h : exec i s = .next t) : t.SequencerInv := by
  cases i with
  | nop => rw [execNop_frame h]; exact hs.congr rfl
  | crcInit => rw [exec_crc_frame (.inl rfl) h]; exact hs.congr rfl
  | crcByte b => rw [exec_crc_frame (.inr ⟨b, rfl⟩) h]; exact hs.congr rfl
  | fnClear => rw [exec_name_frame (.inl rfl) h]; exact hs.congr rfl
  | fnPush b => rw [exec_name_frame (.inr ⟨b, rfl⟩) h]; exact hs.congr rfl
  | hdrBuild => rw [execHdrBuild_frame h]; exact hs.congr rfl
  | plan => exact execPlan_keeps_sequencerInv hs h
  | frameInfo index => exact execFrameInfo_keeps_sequencerInv hs h
  | pktBuild index => exact execPktBuild_keeps_sequencerInv hs h
  | pktRaw role => rw [execPktRaw_frame h]; exact hs.congr rfl
  | softReset => cases h; exact reset_sequencerInv.congr rfl

/-- Of the registers only DATA_LEN is a field the invariant reads, and a write to it drops the plan (10_state.md R20). -/
theorem writeReg_keeps_sequencerInv (r : Reg) (v : BitVec 32) (hs : s.SequencerInv) : (writeReg v s r).SequencerInv := by
  cases r with
  | dataLen => exact ⟨.inl rfl, frameInv_congr rfl hs.frame⟩
  | _ => exact hs.congr rfl

theorem step_keeps_sequencerInv (hs : s.SequencerInv) (h : step s = .next t) : t.SequencerInv :=
  step_keeps (fun _ _ hs => hs.congr rfl) (fun _ _ _ => exec_keeps_sequencerInv) (fun _ _ hs => hs.congr rfl)
    (fun _ r v => writeReg_keeps_sequencerInv r v) (fun _ _ _ _ _ _ hs => hs.congr rfl) reset_sequencerInv hs h

end sequencer

/-- Settles O56: PLAN writes the plan of the length, the two commands that select a frame do so in a current plan, and a DATA_LEN
write leaves no plan. -/
theorem stepKeepsPlanCurrent : Obligations.StepKeepsPlanCurrent := by
  intro s t hplan hframe hstep
  have ht : t.SequencerInv := step_keeps_sequencerInv ⟨hplan, hframe⟩ hstep
  exact ⟨ht.plan, ht.frame⟩

/-! The packet and ERR_CODE (43_packet.md R95, 30_encoding.md R70). -/

/-- PKTBUF is well formed while PKT_VALID is 1, and ERR_CODE is a code of 60_exceptions.md R98. -/
structure State.PacketInv (s : State) : Prop where
  packet : s.packetInv
  errCode : s.errCodeInv

section packet
variable {s t : State}

/-- The fields that `State.packetInv` reads. -/
def State.packetPart (s : State) : Bool × Vector (BitVec 8) 221 × PktInfo := (s.pktValid, s.pktbuf, s.pktInfo)

theorem packetInv_congr (h : t.packetPart = s.packetPart) (hs : s.packetInv) : t.packetInv := by
  simp only [State.packetPart, Prod.mk.injEq] at h
  obtain ⟨hvalid, hbuf, hinfo⟩ := h
  simpa only [State.packetInv, hvalid, hbuf, hinfo] using hs

theorem reset_packetInv : State.reset.PacketInv := ⟨nofun, Nat.zero_le 7⟩

theorem raiseCmdError_keeps_packetInv (e : CmdError) (hs : s.packetInv) : (raiseCmdError e s).PacketInv :=
  ⟨packetInv_congr rfl hs, e.code_le⟩

/-- Only the packet commands and SOFT_RESET write the packet; those that raise nothing leave one that is well formed, or none. -/
theorem exec_keeps_packetInv {i : Instr} (hs : s.PacketInv) (h : exec i s = .next t) : t.PacketInv := by
  obtain ⟨e, -, rfl⟩ | ⟨hok, -⟩ := exec_next_cases h
  · exact raiseCmdError_keeps_packetInv e hs.packet
  refine ⟨?_, by rw [State.errCodeInv, hok]; decide⟩
  cases i with
  | nop => rw [execNop_frame h]; exact hs.packet
  | crcInit => rw [exec_crc_frame (.inl rfl) h]; exact hs.packet
  | crcByte b => rw [exec_crc_frame (.inr ⟨b, rfl⟩) h]; exact hs.packet
  | fnClear => rw [exec_name_frame (.inl rfl) h]; exact hs.packet
  | fnPush b => rw [exec_name_frame (.inr ⟨b, rfl⟩) h]; exact hs.packet
  | hdrBuild => rw [execHdrBuild_frame h]; exact hs.packet
  | plan => rw [execPlan_frame h]; exact hs.packet
  | frameInfo index => rw [execFrameInfo_frame h]; exact hs.packet
  | pktBuild index => exact (execPktBuild_packetInv h hok).2
  | pktRaw role => exact (execPktRaw_packetInv h hok).2
  | softReset => cases h; exact nofun

theorem writeReg_keeps_packetInv (r : Reg) (v : BitVec 32) (hs : s.PacketInv) : (writeReg v s r).PacketInv := by
  cases r <;> exact ⟨hs.packet, hs.errCode⟩

theorem step_keeps_packetInv (hs : s.PacketInv) (h : step s = .next t) : t.PacketInv :=
  step_keeps (fun _ _ hs => ⟨hs.packet, hs.errCode⟩) (fun _ _ _ => exec_keeps_packetInv)
    (fun _ e hs => raiseCmdError_keeps_packetInv e hs.packet) (fun _ r v => writeReg_keeps_packetInv r v)
    (fun _ _ _ _ _ _ hs => ⟨hs.packet, hs.errCode⟩) reset_packetInv hs h

end packet

/-- Settles O57: PKTBUF changes only in a packet command that succeeds or in a reset, and ERR_CODE only to a code of
60_exceptions.md R98. -/
theorem stepKeepsPacketWellFormed : Obligations.StepKeepsPacketWellFormed := by
  intro s t hpacket hcode hstep
  have ht : t.PacketInv := step_keeps_packetInv ⟨hpacket, hcode⟩ hstep
  exact ⟨ht.packet, ht.errCode⟩

/-! SRC in canonical form (10_state.md R41). -/

section src
variable {s t : State}

theorem srcInv_congr (h : t.src = s.src) (hs : s.srcInv) : t.srcInv := by rw [State.srcInv, h]; exact hs

/-- An admitted write to the SRC window stores below SRC_BYTES (20_memory.md R45, R48). -/
theorem writeSrc_keeps_srcInv {a : Addr} {size : Nat} (v : BitVec 32)
    (hf : hostFault false a size s = none) (hs : s.srcInv) :
    ({ s with src := writeSrc (srcOffset a) size v s.src } : State).srcInv := by
  obtain ⟨-, hsize, haligned, -⟩ := hostFault_eq_none_iff.1 hf
  exact writeSrc_wf v (srcOffset_fits hsize haligned) hs

theorem step_keeps_srcInv (hs : s.srcInv) (h : step s = .next t) : t.srcInv :=
  step_keeps (fun _ _ hs => hs) (fun _ _ _ hs h => srcInv_congr (exec_src h) hs) (fun _ _ hs => hs)
    (fun _ r _ hs => by cases r <;> exact hs) (fun _ _ _ v _ hf hs => writeSrc_keeps_srcInv v hf hs) rfl hs h

end src

/-- Settles O58: only the host writes SRC, below SRC_BYTES and by `Memory.write`, which keeps the offsets rising. -/
theorem stepKeepsSrcCanonical : Obligations.StepKeepsSrcCanonical := fun _ _ => step_keeps_srcInv

/-- Settles O59: at reset there is no plan, no header, no name, no frame, no packet, no error and no SRC byte. -/
theorem resetMeetsInvariants : Obligations.ResetMeetsInvariants :=
  ⟨reset_specInv.plan, reset_specInv.header, reset_specInv.name, reset_sequencerInv.plan, reset_sequencerInv.frame,
    reset_packetInv.packet, reset_packetInv.errCode, reset_src_wf⟩

/-! The named writers of each part of the block (10_state.md R38 to R41). -/

/-- The fields that only commands and the resets write. -/
def State.commandPart (s : State) :
    BitVec 16 × Vector (BitVec 8) 50 × Vector (BitVec 8) 55 × Vector (BitVec 8) 221 × Bool :=
  (s.crcState, s.fnbuf, s.hdrbuf, s.pktbuf, s.pktValid)

/-- Each of these fields differs between `s` and `t` only if `L` holds of a command that the spec names as its writer. -/
structure NamedWriters (L : Instr → Prop) (s t : State) : Prop where
  crcState : t.crcState ≠ s.crcState → L .crcInit ∨ (∃ b, L (.crcByte b)) ∨ L .hdrBuild
  fnbuf : t.fnbuf ≠ s.fnbuf → L .fnClear ∨ ∃ b, L (.fnPush b)
  hdrbuf : t.hdrbuf ≠ s.hdrbuf → L .hdrBuild
  pktbuf : t.pktbuf ≠ s.pktbuf → (∃ i, L (.pktBuild i)) ∨ ∃ role, L (.pktRaw role)
  pktValid : t.pktValid ≠ s.pktValid → (∃ i, L (.pktBuild i)) ∨ ∃ role, L (.pktRaw role)
  pktValid_stays : s.pktValid = true → t.pktValid = true

section writers
variable {s t : State} {L : Instr → Prop}

theorem namedWriters_of_unchanged (h : t.commandPart = s.commandPart) : NamedWriters L s t := by
  simp only [State.commandPart, Prod.mk.injEq] at h
  obtain ⟨hcrc, hfn, hhdr, hpkt, hvalid⟩ := h
  exact ⟨absurd hcrc, absurd hfn, absurd hhdr, absurd hpkt, absurd hvalid, hvalid.trans⟩

/-- A packet command never clears PKT_VALID: it raises an error, or it leaves a packet. -/
theorem exec_packet_keeps_pktValid {i : Instr} (hi : (∃ index, i = .pktBuild index) ∨ ∃ role, i = .pktRaw role)
    (h : exec i s = .next t) (hs : s.pktValid = true) : t.pktValid = true := by
  obtain ⟨e, -, rfl⟩ | ⟨hok, -⟩ := exec_next_cases h
  · exact hs
  · obtain ⟨index, rfl⟩ | ⟨role, rfl⟩ := hi
    · exact (execPktBuild_packetInv h hok).1
    · exact (execPktRaw_packetInv h hok).1

/-- A command other than SOFT_RESET writes what the spec names it for, by its frame. -/
theorem exec_namedWriters {i : Instr} (hL : L i) (hi : i ≠ .softReset) (h : exec i s = .next t) : NamedWriters L s t := by
  cases i with
  | nop => rw [execNop_frame h]; exact namedWriters_of_unchanged rfl
  | crcInit =>
    rw [exec_crc_frame (.inl rfl) h]
    exact ⟨fun _ => .inl hL, absurd rfl, absurd rfl, absurd rfl, absurd rfl, id⟩
  | crcByte b =>
    rw [exec_crc_frame (.inr ⟨b, rfl⟩) h]
    exact ⟨fun _ => .inr (.inl ⟨b, hL⟩), absurd rfl, absurd rfl, absurd rfl, absurd rfl, id⟩
  | fnClear =>
    rw [exec_name_frame (.inl rfl) h]
    exact ⟨absurd rfl, fun _ => .inl hL, absurd rfl, absurd rfl, absurd rfl, id⟩
  | fnPush b =>
    rw [exec_name_frame (.inr ⟨b, rfl⟩) h]
    exact ⟨absurd rfl, fun _ => .inr ⟨b, hL⟩, absurd rfl, absurd rfl, absurd rfl, id⟩
  | hdrBuild =>
    rw [execHdrBuild_frame h]
    exact ⟨fun _ => .inr (.inr hL), absurd rfl, fun _ => hL, absurd rfl, absurd rfl, id⟩
  | plan => rw [execPlan_frame h]; exact namedWriters_of_unchanged rfl
  | frameInfo index => rw [execFrameInfo_frame h]; exact namedWriters_of_unchanged rfl
  | pktBuild index =>
    have hvalid := exec_packet_keeps_pktValid (.inl ⟨index, rfl⟩) h
    rw [execPktBuild_frame h]
    exact ⟨absurd rfl, absurd rfl, absurd rfl, fun _ => .inl ⟨index, hL⟩, fun _ => .inl ⟨index, hL⟩, hvalid⟩
  | pktRaw role =>
    have hvalid := exec_packet_keeps_pktValid (.inr ⟨role, rfl⟩) h
    rw [execPktRaw_frame h]
    exact ⟨absurd rfl, absurd rfl, absurd rfl, fun _ => .inr ⟨role, hL⟩, fun _ => .inr ⟨role, hL⟩, hvalid⟩
  | softReset => exact absurd rfl hi

/-- A register write reaches neither SRC nor any field that only commands write (10_state.md R21, 20_memory.md R56). -/
theorem writeReg_commandPart (r : Reg) (v : BitVec 32) (s : State) :
    (writeReg v s r).commandPart = s.commandPart ∧ (writeReg v s r).src = s.src := by
  cases r <;> exact ⟨rfl, rfl⟩

/-- But for the reset input the host writes SRC through its window, and of the rest nothing that commands write. -/
theorem hostStep_commandPart (h : hostStep s = .next t) (hreset : ¬ s.resetAsserted) :
    t.commandPart = s.commandPart ∧
    (t.src ≠ s.src → ∃ a size v rest, s.hostQueue = .write a size v :: rest ∧ 0x200000 ≤ a.toNat) := by
  obtain hidle | ⟨r, v, rest, rfl⟩ | ⟨a, size, v, rest, hq, hregion, -, rfl⟩ | ⟨rest, hq, -⟩ := hostStep_effect h
  · rw [hidle]; exact ⟨rfl, absurd rfl⟩
  · obtain ⟨hpart, hsrc⟩ := writeReg_commandPart r v { s with hostQueue := rest }
    exact ⟨hpart, absurd hsrc⟩
  · exact ⟨rfl, fun _ => ⟨a, size, v, rest, hq, le_of_regionOf_src hregion⟩⟩
  · exact absurd ⟨rest, hq⟩ hreset

end writers

/-- Settles O54: a command writes by its frame and never SRC, a decode error writes none of these, and the host only SRC. -/
theorem onlyNamedWritersWriteState : Obligations.OnlyNamedWritersWriteState := by
  intro s t h hreset hsoft
  have hwriters : NamedWriters s.latched s t ∧
      (t.src ≠ s.src → ∃ a size v rest, s.hostQueue = .write a size v :: rest ∧ 0x200000 ≤ a.toNat) := by
    obtain ⟨w, i, hp, -, hd, hexec⟩ | ⟨w, e, -, -, -, rfl⟩ | ⟨-, hhost⟩ := step_next h
    · have hlatched : s.latched i := ⟨w, hp, hd⟩
      have hi : i ≠ .softReset := fun hi => hsoft (hi ▸ hlatched)
      obtain ⟨hcrc, hfn, hhdr, hpkt, hvalid, hstays⟩ := exec_namedWriters hlatched hi hexec
      exact ⟨⟨hcrc, hfn, hhdr, hpkt, hvalid, hstays⟩, absurd ((exec_src hexec).trans (takeCommand_src s))⟩
    · exact ⟨namedWriters_of_unchanged rfl, absurd rfl⟩
    · obtain ⟨hpart, hsrc⟩ := hostStep_commandPart hhost hreset
      exact ⟨namedWriters_of_unchanged hpart, hsrc⟩
  obtain ⟨⟨hcrc, hfn, hhdr, hpkt, hvalid, hstays⟩, hsrc⟩ := hwriters
  exact ⟨hcrc, hfn, hhdr, hpkt, hsrc, hvalid, hstays⟩

end Sys2Proof.Machine
end

-- ==== Structure of the CRC update (40_crc.md): its table form and what it detects ====
section
/-! Two consequences of 40_crc.md R73 and R76: the update is linear over XOR, which gives the byte-table form, and it loses no
information, so a changed byte always changes the CRC. -/

namespace Sys2Proof.Machine

/-! The update is linear over XOR (40_crc.md R73). -/

/-- One iteration as an XOR: the shifted register, and the polynomial when the bit shifted out is 1. -/
theorem crcShift_eq_xor (c : BitVec 16) :
    crcShift c = (c >>> 1) ^^^ if c.getLsbD 0 then Config.crcPoly else 0 := by
  unfold crcShift
  split
  · rfl
  · exact (BitVec.xor_zero).symm

theorem crcShift_of_bit_clear {c : BitVec 16} (h : c.getLsbD 0 = false) : crcShift c = c >>> 1 :=
  if_neg (by rw [h]; decide)

theorem crcShift_xor (x y : BitVec 16) : crcShift (x ^^^ y) = crcShift x ^^^ crcShift y := by
  have hpoly : (if (x ^^^ y).getLsbD 0 then Config.crcPoly else 0) =
      (if x.getLsbD 0 then Config.crcPoly else 0) ^^^ (if y.getLsbD 0 then Config.crcPoly else 0) := by
    rw [BitVec.getLsbD_xor]
    cases x.getLsbD 0 <;> cases y.getLsbD 0 <;> rfl
  simp only [crcShift_eq_xor, hpoly, BitVec.ushiftRight_xor_distrib]
  ac_rfl

theorem crcShifts_xor (n : Nat) (x y : BitVec 16) : crcShifts n (x ^^^ y) = crcShifts n x ^^^ crcShifts n y := by
  induction n generalizing x y with
  | zero => rfl
  | succ n ih => rw [crcShifts, crcShift_xor, ih, crcShifts, crcShifts]

/-- Bits that are all 0 as they leave the register never bring the polynomial in. -/
theorem crcShifts_of_low_zero {n : Nat} {c : BitVec 16} (h : ∀ j, j < n → c.getLsbD j = false) :
    crcShifts n c = c >>> n := by
  induction n generalizing c with
  | zero => exact (BitVec.ushiftRight_zero c).symm
  | succ n ih =>
    have hshift : crcShift c = c >>> 1 := crcShift_of_bit_clear (h 0 n.succ_pos)
    have hlow (j : Nat) (hj : j < n) : (c >>> 1).getLsbD j = false := by
      rw [BitVec.getLsbD_ushiftRight]; exact h (1 + j) (by omega)
    rw [crcShifts, hshift, ih hlow, ← BitVec.shiftRight_add, Nat.add_comm]

/-- A register is its upper byte in place, XOR its lower byte. -/
theorem upper_xor_lower (c : BitVec 16) : ((c >>> 8) <<< 8) ^^^ (c.setWidth 8).setWidth 16 = c := by
  refine BitVec.eq_of_getLsbD_eq fun i hi => ?_
  simp only [BitVec.getLsbD_xor, BitVec.getLsbD_shiftLeft, BitVec.getLsbD_ushiftRight, BitVec.getLsbD_setWidth, hi]
  by_cases h : i < 8
  · simp [h]
  · simp [h, show 8 + (i - 8) = i by omega]

/-- Shifted out of the register, the upper byte is left where the lower was. -/
theorem crcShifts_upper (c : BitVec 16) : crcShifts 8 ((c >>> 8) <<< 8) = c >>> 8 := by
  rw [crcShifts_of_low_zero fun j hj => by simp [hj]]
  refine BitVec.eq_of_getLsbD_eq fun i hi => ?_
  simp only [BitVec.getLsbD_shiftLeft, BitVec.getLsbD_ushiftRight]
  by_cases h : 8 + i < 16
  · simp [h]
  · simp [BitVec.getLsbD_of_ge c (8 + i) (Nat.le_of_not_lt h)]

/-- Settles O2: by linearity the upper byte is only shifted out, and the lower byte meets the data byte. -/
theorem crcStepEqualsTableForm : Obligations.CrcStepEqualsTableForm := by
  intro c b
  have hsplit : c ^^^ b.setWidth 16 = ((c >>> 8) <<< 8) ^^^ (c.setWidth 8 ^^^ b).setWidth 16 := by
    rw [BitVec.setWidth_xor, ← BitVec.xor_assoc, upper_xor_lower]
  calc crcStep c b
    _ = crcShifts 8 ((c >>> 8) <<< 8) ^^^ crcShifts 8 ((c.setWidth 8 ^^^ b).setWidth 16) := by
      rw [crcStep, hsplit, crcShifts_xor]
    _ = (c >>> 8) ^^^ crcStep 0 (c.setWidth 8 ^^^ b) := by
      rw [crcShifts_upper, crcStep, show (0 : BitVec 16) = 0#16 from rfl, BitVec.zero_xor]

/-! The update loses no information (40_crc.md R73, R76). -/

/-- The polynomial has bit 15 set, so the bit shifted out shows there. -/
theorem crcShift_getLsbD_15 (c : BitVec 16) : (crcShift c).getLsbD 15 = c.getLsbD 0 := by
  rw [crcShift_eq_xor, BitVec.getLsbD_xor, BitVec.getLsbD_ushiftRight, BitVec.getLsbD_of_ge c 16 (Nat.le_refl 16)]
  cases c.getLsbD 0 <;> rfl

theorem eq_zero_of_crcShift_eq_zero {c : BitVec 16} (h : crcShift c = 0) : c = 0 := by
  have hbit : c.getLsbD 0 = false := by rw [← crcShift_getLsbD_15, h]; rfl
  have hshift : c >>> 1 = 0 := (crcShift_of_bit_clear hbit).symm.trans h
  refine BitVec.eq_of_getLsbD_eq fun i hi => ?_
  cases i with
  | zero => exact hbit
  | succ i =>
    have hi' := congrArg (BitVec.getLsbD · i) hshift
    simpa [BitVec.getLsbD_ushiftRight, Nat.add_comm] using hi'

theorem crcShift_injective : Function.Injective crcShift := by
  intro x y h
  have hzero : crcShift (x ^^^ y) = 0 := by rw [crcShift_xor, h]; exact BitVec.xor_self
  exact BitVec.xor_eq_zero_iff.1 (eq_zero_of_crcShift_eq_zero hzero)

/-- The update tells apart any two inputs that differ once the byte is in. -/
theorem crcStep_eq_iff {c c' : BitVec 16} {b b' : BitVec 8} :
    crcStep c b = crcStep c' b' ↔ c ^^^ b.setWidth 16 = c' ^^^ b'.setWidth 16 := by
  rw [crcStep_eq_iterate, crcStep_eq_iterate]
  exact (crcShift_injective.iterate 8).eq_iff

theorem crcStep_injective_state (b : BitVec 8) : Function.Injective (crcStep · b) :=
  fun _ _ h => (BitVec.xor_left_inj _).1 (crcStep_eq_iff.1 h)

theorem crcStep_injective_byte (c : BitVec 16) : Function.Injective (crcStep c) := by
  intro b b' h
  have hwide : b.setWidth 16 = b'.setWidth 16 := (BitVec.xor_right_inj _).1 (crcStep_eq_iff.1 h)
  have hlow := congrArg (BitVec.setWidth 8) hwide
  rwa [BitVec.setWidth_setWidth_of_le b (by decide), BitVec.setWidth_setWidth_of_le b' (by decide), BitVec.setWidth_eq,
    BitVec.setWidth_eq] at hlow

/-- Bytes that follow keep two different registers different. -/
theorem crcFold_injective (bs : List (BitVec 8)) : Function.Injective (crcFold · bs) := by
  induction bs with
  | nil => exact fun _ _ h => h
  | cons b bs ih => exact fun _ _ h => crcStep_injective_state b (ih h)

/-- Settles O3: the registers differ after the changed byte, and no later byte or the final XOR makes them equal again. -/
theorem crc16DetectsOneChangedByte : Obligations.Crc16DetectsOneChangedByte := by
  intro xs ys b b' hne h
  have hfold : crcFold Config.crcInit (xs ++ b :: ys) = crcFold Config.crcInit (xs ++ b' :: ys) :=
    (BitVec.xor_left_inj _).1 h
  simp only [crcFold, List.foldl_append, List.foldl_cons] at hfold
  exact hne (crcStep_injective_byte _ (crcFold_injective ys hfold))

end Sys2Proof.Machine
end

-- ==== PKT_BUILD (43_packet.md): its outcomes, the packets it builds and the file they carry ====
section
/-! The obligations of 43_packet.md about PKT_BUILD (R91): its checks, the packet of a planned frame, the header in frame 1, what the
outcome depends on, and that the packets of a plan hold the file. -/

namespace Sys2Proof.Machine

/-! PKT_BUILD in its outcomes (43_packet.md R91), after `exec_pktBuild_of_noPlan`. -/

section outcomes
variable {s : State} {i : BitVec 16}

theorem exec_pktBuild_of_outOfPlan (hmode : s.plan.mode ≠ 0) (hi : s.indexOutOfPlan i = true) :
    exec (.pktBuild i) s = .next (raiseCmdError .badIndex s) := (if_neg hmode).trans (if_pos hi)

theorem exec_pktBuild_of_noHeader (hmode : s.plan.mode ≠ 0) (hi : s.indexOutOfPlan i = false)
    (hhdr : i = 1 ∧ s.hdrValid = false) : exec (.pktBuild i) s = .next (raiseCmdError .notReady s) :=
  (if_neg hmode).trans ((if_neg (Bool.eq_false_iff.1 hi)).trans (if_pos hhdr))

theorem exec_pktBuild_of_unreadable (hmode : s.plan.mode ≠ 0) (hi : s.indexOutOfPlan i = false)
    (hhdr : i = 1 → s.hdrValid = true)
    (hsrc : s.src.readRange (frameGeom i.toNat s.fileLen).off (frameGeom i.toNat s.fileLen).dlen = none) :
    exec (.pktBuild i) s = .fault .unwrittenSrcRead := by
  have hno : ¬ (i = 1 ∧ s.hdrValid = false) := fun ⟨h1, hf⟩ => Bool.false_ne_true (hf.symm.trans (hhdr h1))
  refine (if_neg hmode).trans ((if_neg (Bool.eq_false_iff.1 hi)).trans ((if_neg hno).trans ?_))
  simp only [hsrc]

/-- An index from 1 to FRAME_COUNT is in the plan. -/
theorem indexOutOfPlan_eq_false (hlo : i ≠ 0) (hhi : i.toNat ≤ s.plan.frameCount.toNat) : s.indexOutOfPlan i = false :=
  Bool.eq_false_iff.2 fun hout => (indexOutOfPlan_iff.1 hout).elim hlo (Nat.not_lt.2 hhi)

/-- With every check passed and the frame's bytes written, PKT_BUILD leaves `builtPacket`. -/
theorem exec_pktBuild_of_written {data : List (BitVec 8)} (hmode : s.plan.mode ≠ 0) (hi : s.indexOutOfPlan i = false)
    (hhdr : i = 1 → s.hdrValid = true) (hlen : data.length = (frameGeom i.toNat s.fileLen).dlen)
    (hsrc : ∀ (k : Nat) (h : k < data.length), s.src.read ((frameGeom i.toNat s.fileLen).off + k) = some data[k]) :
    exec (.pktBuild i) s = .next (builtPacket i data s) := by
  refine execPktBuild_eq hmode hi hhdr ((Memory.readRange_eq_some_iff _ _ _ _).2 ⟨hlen, fun k hk => ?_⟩)
  have hk' : k < data.length := hlen ▸ hk
  exact (hsrc k hk').trans (List.getElem?_eq_getElem hk').symm

end outcomes

/-- Settles O20: the outcomes in the order of the checks. -/
theorem pktBuildChecksInOrder : Obligations.PktBuildChecksInOrder := by
  refine ⟨fun s i => exec_pktBuild_of_noPlan,
    fun s i hmode hi => exec_pktBuild_of_outOfPlan hmode (indexOutOfPlan_iff.2 hi),
    fun s hmode hcount hhdr => exec_pktBuild_of_noHeader hmode (indexOutOfPlan_eq_false (by decide) hcount) ⟨rfl, hhdr⟩,
    fun s i k hmode hlo hhi hhdr hk hread => ?_⟩
  exact exec_pktBuild_of_unreadable hmode (indexOutOfPlan_eq_false hlo hhi) hhdr
    ((Memory.readRange_eq_none_iff _ _ _).2 ⟨k, hk, hread⟩)

/-! The bytes of a built packet (43_packet.md R91, R92). -/

section bytes
variable (data : List (BitVec 8)) (s : State)

/-- In the packet of frame 1 the header is bytes 2 to 56. -/
theorem builtPacket_one_header (k : Nat) (h : k < 55) : (builtPacket 1 data s).pktbuf[2 + k] = s.hdrbuf[k] := by
  have hk : k < s.hdrbuf.toList.length := by simpa using h
  calc (builtPacket 1 data s).pktbuf[2 + k]
    _ = (s.hdrbuf.toList ++ data).getD k 0 := encodePacket_getElem_payload _ _ _ k (by omega)
    _ = s.hdrbuf.toList[k] := by rw [List.getD_append _ _ _ _ hk, List.getD_eq_getElem _ _ hk]
    _ = s.hdrbuf[k] := Vector.getElem_toList hk

/-- In the packet of frame 1 the data follows the header, and zeros the data. -/
theorem builtPacket_one_data (k : Nat) (h : k < 164) : (builtPacket 1 data s).pktbuf[57 + k] = data.getD k 0 := by
  have hhdr : s.hdrbuf.toList.length = 55 := Vector.length_toList
  simp only [show 57 + k = 2 + (55 + k) by omega]
  calc (builtPacket 1 data s).pktbuf[2 + (55 + k)]
    _ = (s.hdrbuf.toList ++ data).getD (55 + k) 0 := encodePacket_getElem_payload _ _ _ (55 + k) (by omega)
    _ = data.getD k 0 := by rw [List.getD_append_right _ _ _ _ (by omega), hhdr, Nat.add_sub_cancel_left]

/-- In every other packet the data starts at byte 2. -/
theorem builtPacket_later_data {i : BitVec 16} (hi : i ≠ 1) (k : Nat) (h : k < 219) :
    (builtPacket i data s).pktbuf[2 + k] = data.getD k 0 :=
  (encodePacket_getElem_payload _ _ _ k h).trans (by rw [framePayload_later s.hdrbuf data hi])

end bytes

/-- Settles O19: the frame builds by `exec_pktBuild_of_written`, and the bytes are those of `builtPacket`. -/
theorem pktBuildSerializesFrame : Obligations.PktBuildSerializesFrame := by
  intro s i data hmode hlo hhi hhdr hlen hsrc
  refine ⟨builtPacket i data s, exec_pktBuild_of_written hmode (indexOutOfPlan_eq_false hlo hhi) hhdr hlen hsrc, rfl, rfl,
    rfl, fun hi => ?_, fun hi => builtPacket_later_data data s hi⟩
  subst hi
  exact ⟨builtPacket_one_header data s, builtPacket_one_data data s⟩

/-! The packet of frame 1 (41_header.md R82, 43_packet.md R91). -/

section firstPacket
variable {s t : State}

/-- A PKT_BUILD that reports success built the packet from the frame's bytes, and for frame 1 from a valid header. -/
theorem exec_pktBuild_ok {i : BitVec 16} (h : exec (.pktBuild i) s = .next t) (hok : t.errCode = 0) :
    s.plan.mode ≠ 0 ∧ (i = 1 → s.hdrValid = true) ∧
      ∃ data, data.length = (frameGeom i.toNat s.fileLen).dlen ∧ t = builtPacket i data s := by
  obtain ⟨-, rfl⟩ | ⟨-, -, rfl⟩ | ⟨-, -, -, -, rfl⟩ | ⟨hmode, -, hhdr, data, hdata, rfl⟩ := execPktBuild_next h
  · exact absurd hok (raiseCmdError_errCode_ne_zero _ _)
  · exact absurd hok (raiseCmdError_errCode_ne_zero _ _)
  · exact absurd hok (raiseCmdError_errCode_ne_zero _ _)
  · exact ⟨hmode, hhdr, data, Memory.readRange_length hdata, rfl⟩

/-- Frame 1 carries at most 163 data bytes, and the whole of a file that is not longer (42_sequencer.md R88). -/
theorem frameGeom_one_dlen (n : Nat) : (frameGeom 1 n).dlen = min n 163 := by
  rcases le_or_gt n 163 with hsingle | hmulti
  · rw [frameGeom_single 1 hsingle, Nat.min_eq_left hsingle]
  · rw [frameGeom_first hmulti, Nat.min_eq_right hmulti.le]

/-- Two bytes, the more significant first, hold the 16-bit value they are taken from (20_memory.md R51). -/
theorem crcField_value (crc : BitVec 16) :
    (crc.extractLsb' 8 8).toNat * 256 + (crc.extractLsb' 0 8).toNat = crc.toNat := by
  have hlt := crc.isLt
  simp only [BitVec.extractLsb'_toNat, Nat.shiftRight_eq_div_pow]
  omega

end firstPacket

/-- Settles O21: the header in the packet is the current one, whose size field is read by `encodeHeader_size_value`. -/
theorem firstPacketCarriesCurrentHeader : Obligations.FirstPacketCarriesCurrentHeader := by
  intro s t hplan hheader h hok
  obtain ⟨hmode, hvalid, data, hlen, rfl⟩ := exec_pktBuild_ok h hok
  obtain ⟨hsize, hhdr⟩ := hheader (hvalid rfl)
  have hdata : data.length = min s.fileLen 163 := hlen.trans (frameGeom_one_dlen s.fileLen)
  have hbyte (k : Nat) (hk : k < 55) :
      (builtPacket 1 data s).pktbuf[2 + k] = (encodeHeader s.fnbuf s.fnLen s.dataLen)[k] := by
    rw [builtPacket_one_header data s k hk]; simp only [hhdr]
  have hzero (k : Nat) (hk : k < 164) (hge : data.length ≤ k) : (builtPacket 1 data s).pktbuf[57 + k] = 0 :=
    (builtPacket_one_data data s k hk).trans (List.getD_eq_default data 0 hge)
  have hshort : data.length ≤ 163 := hdata.trans_le (Nat.min_le_right _ _)
  have hname := encodeHeader_getElem_name s.fnbuf s.fnLen s.dataLen
  have hcrc := encodeHeader_getElem_crc s.fnbuf s.fnLen s.dataLen
  refine ⟨?size, ?crc, fun k hk => (hbyte k (by omega)).trans (hname k hk), hzero 163 (by decide) hshort,
    fun k hk hsingle hge => ?padding⟩
  case size =>
    have hsmall : s.fileLen < 2 ^ 24 := Nat.lt_of_le_of_lt hsize (by decide)
    rw [show (builtPacket 1 data s).pktbuf[54] = _ from hbyte 52 (by decide),
      show (builtPacket 1 data s).pktbuf[55] = _ from hbyte 53 (by decide),
      show (builtPacket 1 data s).pktbuf[56] = _ from hbyte 54 (by decide)]
    exact (encodeHeader_size_value s.fnbuf s.fnLen s.dataLen).trans (Nat.mod_eq_of_lt hsmall)
  case crc =>
    rw [show (builtPacket 1 data s).pktbuf[52] = _ from (hbyte 50 (by decide)).trans (hcrc 0 (by decide)),
      show (builtPacket 1 data s).pktbuf[53] = _ from (hbyte 51 (by decide)).trans (hcrc 1 (by decide))]
    exact crcField_value _
  case padding =>
    have hpast := hzero (k - 57) (by omega) (by omega)
    simpa only [show 57 + (k - 57) = k by omega] using hpast

/-! What the outcome of PKT_BUILD depends on (43_packet.md R91, 70_reset_and_hazards.md R119). -/

/-- The two states agree on what PKT_BUILD reads: SRC, DATA_LEN, the plan and the header. -/
structure SamePacketInputs (s s' : State) : Prop where
  src : s'.src = s.src
  dataLen : s'.dataLen = s.dataLen
  plan : s'.plan = s.plan
  hdrValid : s'.hdrValid = s.hdrValid
  hdrbuf : s'.hdrbuf = s.hdrbuf

section samePacketInputs
variable {s s' : State}

theorem SamePacketInputs.refl (s : State) : SamePacketInputs s s := ⟨rfl, rfl, rfl, rfl, rfl⟩

theorem SamePacketInputs.fileLen (h : SamePacketInputs s s') : s'.fileLen = s.fileLen := congrArg BitVec.toNat h.dataLen

theorem SamePacketInputs.indexOutOfPlan (h : SamePacketInputs s s') (i : BitVec 16) :
    s'.indexOutOfPlan i = s.indexOutOfPlan i := by simp only [State.indexOutOfPlan, h.plan]

/-- The frame's bytes are the same read in both states. -/
theorem SamePacketInputs.readRange (h : SamePacketInputs s s') (i : Nat) :
    s'.src.readRange (frameGeom i s'.fileLen).off (frameGeom i s'.fileLen).dlen =
      s.src.readRange (frameGeom i s.fileLen).off (frameGeom i s.fileLen).dlen := by rw [h.src, h.fileLen]

theorem SamePacketInputs.builtPacket (h : SamePacketInputs s s') (i : BitVec 16) (data : List (BitVec 8)) :
    (builtPacket i data s').pktbuf = (builtPacket i data s).pktbuf ∧
    (builtPacket i data s').pktInfo = (builtPacket i data s).pktInfo ∧
    (builtPacket i data s').frame = (builtPacket i data s).frame := by
  simp only [Machine.builtPacket, succeed_pktbuf, succeed_pktInfo, succeed_frame, storePacket_pktbuf, storePacket_pktInfo,
    storePacket_frame, h.fileLen, h.hdrbuf, and_self]

/-- PKT_BUILD raises one error, builds from the same data, or stops, alike in every state that agrees with `s` on its inputs. -/
theorem exec_pktBuild_uniform (s : State) (i : BitVec 16) :
    (∃ e, ∀ s', SamePacketInputs s s' → exec (.pktBuild i) s' = .next (raiseCmdError e s')) ∨
    (∃ data, ∀ s', SamePacketInputs s s' → exec (.pktBuild i) s' = .next (builtPacket i data s')) ∨
    (∀ s', SamePacketInputs s s' → exec (.pktBuild i) s' = .fault .unwrittenSrcRead) := by
  by_cases hmode : s.plan.mode = 0
  · exact .inl ⟨_, fun s' h => exec_pktBuild_of_noPlan (h.plan ▸ hmode)⟩
  have hmode' {s' : State} (h : SamePacketInputs s s') : s'.plan.mode ≠ 0 := h.plan ▸ hmode
  cases hi : s.indexOutOfPlan i with
  | true => exact .inl ⟨_, fun s' h => exec_pktBuild_of_outOfPlan (hmode' h) ((h.indexOutOfPlan i).trans hi)⟩
  | false =>
    have hi' {s' : State} (h : SamePacketInputs s s') : s'.indexOutOfPlan i = false := (h.indexOutOfPlan i).trans hi
    by_cases hhdr : i = 1 ∧ s.hdrValid = false
    · exact .inl ⟨_, fun s' h => exec_pktBuild_of_noHeader (hmode' h) (hi' h) (hhdr.imp_right h.hdrValid.trans)⟩
    have hhdr' {s' : State} (h : SamePacketInputs s s') (h1 : i = 1) : s'.hdrValid = true :=
      h.hdrValid.trans (Bool.eq_true_of_not_eq_false fun hf => hhdr ⟨h1, hf⟩)
    cases hsrc : s.src.readRange (frameGeom i.toNat s.fileLen).off (frameGeom i.toNat s.fileLen).dlen with
    | some data =>
      exact .inr (.inl ⟨data, fun s' h =>
        execPktBuild_eq (hmode' h) (hi' h) (hhdr' h) ((h.readRange i.toNat).trans hsrc)⟩)
    | none =>
      exact .inr (.inr fun s' h =>
        exec_pktBuild_of_unreadable (hmode' h) (hi' h) (hhdr' h) ((h.readRange i.toNat).trans hsrc))

end samePacketInputs

/-- Settles O24: both states have the one outcome of `exec_pktBuild_uniform`. -/
theorem secondPassRepeatsFirst : Obligations.SecondPassRepeatsFirst := by
  intro s s' i hsrc hlen hplan hvalid hbuf
  have hrefl : SamePacketInputs s s := .refl s
  have hsame : SamePacketInputs s s' := ⟨hsrc, hlen, hplan, hvalid, hbuf⟩
  obtain ⟨e, hall⟩ | ⟨data, hall⟩ | hall := exec_pktBuild_uniform s i
  · rw [hall s hrefl, hall s' hsame]
    refine ⟨fun t h => ?_, nofun⟩
    cases h
    exact ⟨_, rfl, rfl, fun hok => absurd hok (raiseCmdError_errCode_ne_zero e s)⟩
  · rw [hall s hrefl, hall s' hsame]
    refine ⟨fun t h => ?_, nofun⟩
    cases h
    exact ⟨_, rfl, rfl, fun _ => hsame.builtPacket i data⟩
  · rw [hall s hrefl, hall s' hsame]
    exact ⟨nofun, fun f h => h⟩

/-! The packets of a plan hold the file (42_sequencer.md R88, 43_packet.md R91). -/

/-- The bytes of the file that frame `i` carries. -/
def frameData (file : List (BitVec 8)) (i : Nat) : List (BitVec 8) :=
  (file.drop (frameGeom i file.length).off).take (frameGeom i file.length).dlen

section reassembly
variable {file : List (BitVec 8)}

/-- No planned frame reaches past the end of the file. -/
theorem frameGeom_end_le {n i : Nat} (hlo : 1 ≤ i) (hhi : i ≤ frameCount n) :
    (frameGeom i n).off + (frameGeom i n).dlen ≤ n := by
  rcases Nat.eq_or_lt_of_le hhi with rfl | hbefore
  · exact (frameGeom_end_last n).le
  · rw [frameGeom_end_of_lt hlo hbefore]
    exact ((succ_lt_frameCount_iff n (i - 1)).1 (by omega)).le

theorem frameData_length {i : Nat} (hlo : 1 ≤ i) (hhi : i ≤ frameCount file.length) :
    (frameData file i).length = (frameGeom i file.length).dlen := by
  have hend := frameGeom_end_le hlo hhi
  rw [frameData, List.length_take, List.length_drop]
  omega

theorem frameData_getElem {i k : Nat} (hk : k < (frameData file i).length)
    (hfile : (frameGeom i file.length).off + k < file.length) :
    (frameData file i)[k] = file[(frameGeom i file.length).off + k] := by
  simp [frameData]

/-- The data of the frames up to one is the file up to that frame's end. -/
theorem flatten_frameData {q : Nat} (hq : q < frameCount file.length) :
    ((List.range (q + 1)).map fun k => frameData file (k + 1)).flatten =
      file.take ((frameGeom (q + 1) file.length).off + (frameGeom (q + 1) file.length).dlen) := by
  induction q with
  | zero =>
    simp [frameData, frameGeom_one_off]
  | succ q ih =>
    have hmulti : 163 < file.length := one_lt_frameCount_iff.1 (by omega)
    have hstart : (frameGeom (q + 1 + 1) file.length).off =
        (frameGeom (q + 1) file.length).off + (frameGeom (q + 1) file.length).dlen :=
      (frameGeom_off_succ hmulti (by omega)).trans (frameGeom_end_of_lt (by omega) hq).symm
    rw [List.range_succ, List.map_append, List.flatten_append, ih (by omega), ← hstart, List.take_add]
    simp [frameData]

/-- The data of all frames is the file. -/
theorem flatten_frameData_all (file : List (BitVec 8)) :
    ((List.range (frameCount file.length)).map fun k => frameData file (k + 1)).flatten = file := by
  have hpos := frameCount_pos file.length
  have hall := flatten_frameData (file := file) (q := frameCount file.length - 1) (by omega)
  rwa [Nat.sub_add_cancel hpos, frameGeom_end_last, List.take_length] at hall

theorem encodePacket_toList (tag role : BitVec 8) (pay : List (BitVec 8)) :
    (encodePacket tag role pay).toList = tag :: role :: payloadRegion pay := rfl

/-- The payload of a planned frame's packet is the header in frame 1, then the data, and it fits the packet. -/
theorem framePayload_planned {n : Nat} {i : BitVec 16} {data : List (BitVec 8)} (hdr : Vector (BitVec 8) 55) (hn : 1 ≤ n)
    (hlo : 1 ≤ i.toNat) (hhi : i.toNat ≤ frameCount n) (hlen : data.length = (frameGeom i.toNat n).dlen) :
    (framePayload i hdr data).length = (frameGeom i.toNat n).plen ∧
    (framePayload i hdr data).drop ((frameGeom i.toNat n).plen - (frameGeom i.toNat n).dlen) = data := by
  obtain ⟨-, hpayload⟩ := frameGeom_planned_lengths hn hlo hhi
  have hhdr : hdr.toList.length = 55 := Vector.length_toList
  rw [hpayload, Nat.add_sub_cancel]
  by_cases hi : i = 1
  · subst hi
    rw [framePayload_first, List.length_append, hhdr, hlen]
    exact ⟨rfl, List.drop_left' hhdr⟩
  · have hi' : i.toNat ≠ 1 := mt (fun h => BitVec.eq_of_toNat_eq (y := 1) h) hi
    rw [framePayload_later hdr data hi, if_neg hi', hlen, Nat.zero_add]
    exact ⟨rfl, rfl⟩

/-- What a planned frame's packet carries as file bytes is what it was built from. -/
theorem packetData_builtPacket {s : State} {i : BitVec 16} {data : List (BitVec 8)} (hn : 1 ≤ s.fileLen)
    (hlo : 1 ≤ i.toNat) (hhi : i.toNat ≤ frameCount s.fileLen)
    (hlen : data.length = (frameGeom i.toNat s.fileLen).dlen) : (builtPacket i data s).packetData = data := by
  obtain ⟨hdlen, hplen⟩ := frameGeom_lengths_le hlo hhi
  obtain ⟨hpay, hskip⟩ := framePayload_planned s.hdrbuf hn hlo hhi hlen
  have hdataReg : (builtPacket i data s).frame.dataLen.toNat = (frameGeom i.toNat s.fileLen).dlen :=
    toNat_ofNat_length hdlen
  have hpayReg : (builtPacket i data s).frame.payloadLen.toNat = (frameGeom i.toNat s.fileLen).plen :=
    toNat_ofNat_length hplen
  have hbuf : (builtPacket i data s).pktbuf.toList = _ := encodePacket_toList _ _ (framePayload i s.hdrbuf data)
  rw [State.packetData, hdataReg, hpayReg, hbuf, Nat.add_comm 2, List.drop_succ_cons, List.drop_succ_cons, payloadRegion,
    List.take_of_length_le (hpay.trans_le hplen), List.drop_append_of_le_length (by omega), hskip]
  exact List.take_left' hlen

end reassembly

/-- Settles O25: each frame builds from its bytes of the file, carries them, `packetData_builtPacket`, and the frames' bytes in order
are the file, `flatten_frameData_all`. -/
theorem plannedPacketsReassembleFile : Obligations.PlannedPacketsReassembleFile := by
  intro s file hplan hmode hhdr hfile hsrc
  obtain hnone | ⟨hn, hmax, hregs⟩ := hplan
  · exact absurd (congrArg PlanRegs.mode hnone) hmode
  have hcount : s.plan.frameCount.toNat = frameCount file.length := by rw [hregs, planRegs_frameCount_toNat hmax, hfile]
  have hindex {k : Nat} (hk : k < s.plan.frameCount.toNat) : (BitVec.ofNat 16 (k + 1)).toNat = k + 1 := by
    have hlt := s.plan.frameCount.isLt
    exact (BitVec.toNat_ofNat _ _).trans (Nat.mod_eq_of_lt (by omega))
  have hlen {k : Nat} (hk : k < s.plan.frameCount.toNat) :
      (frameData file (k + 1)).length = (frameGeom (k + 1) s.fileLen).dlen :=
    hfile ▸ frameData_length (by omega) (by omega)
  refine ⟨fun k => builtPacket (BitVec.ofNat 16 (k + 1)) (frameData file (k + 1)) s, fun k hk => ⟨?builds, rfl⟩, ?carries⟩
  case builds =>
    have hne : BitVec.ofNat 16 (k + 1) ≠ 0 := fun h => by
      have h0 := congrArg BitVec.toNat h
      rw [hindex hk] at h0
      exact absurd h0 k.succ_ne_zero
    refine exec_pktBuild_of_written hmode (indexOutOfPlan_eq_false hne (by rw [hindex hk]; omega)) (fun _ => hhdr) ?_ ?_
    · rw [hindex hk]; exact hlen hk
    · intro j hj
      have hend := frameGeom_end_le (n := file.length) (i := k + 1) (by omega) (by omega)
      have hin : (frameGeom (k + 1) file.length).off + j < file.length := by
        rw [hlen hk, ← hfile] at hj; omega
      rw [hindex hk, ← hfile, hsrc _ hin, frameData_getElem hj hin]
  case carries =>
    calc _ = ((List.range s.plan.frameCount.toNat).map fun k => frameData file (k + 1)).flatten := by
          refine congrArg List.flatten (List.map_congr_left fun k hk => ?_)
          have hk' := List.mem_range.1 hk
          refine packetData_builtPacket hn ?_ ?_ ?_
          · rw [hindex hk']; omega
          · rw [hindex hk', ← hfile]; omega
          · rw [hindex hk']; exact hlen hk'
      _ = file := by rw [hcount, flatten_frameData_all]

end Sys2Proof.Machine
end

-- ==== The two agents (30_encoding.md R63, 70_reset_and_hazards.md): the engine step, the busy block, polling and reset ====
section
/-! The obligations about the engine step and its turn (30_encoding.md R63), STATUS and CMD (10_state.md R18, R19), the busy block and
polling (70_reset_and_hazards.md R121, R122), the resets (R111) and the accesses that the port's rules do not fix. -/

namespace Sys2Proof.Machine

/-! The engine step (30_encoding.md R63). -/

section engine
variable {s t : State} {w : BitVec 32} {i : Instr}

/-- A command reports success, SOFT_RESET clearing ERR_STICKY too, or changes nothing but to raise its error. -/
theorem exec_next_ending (h : exec i s = .next t) :
    (t.errCode = 0 ∧ (i ≠ .softReset → t.errSticky = s.errSticky)) ∨ ∃ e, t = raiseCmdError e s := by
  by_cases hi : i = .softReset
  · subst hi
    cases h
    exact .inl ⟨rfl, fun hne => absurd rfl hne⟩
  · obtain ⟨hok, hsticky⟩ | herr := exec_next_of_ne_softReset hi h
    · exact .inl ⟨hok, fun _ => hsticky⟩
    · exact .inr herr

/-- With nothing left for the host to do it is the engine's turn (log 2). -/
theorem engineTurn_of_idle (hq : s.hostQueue = []) : engineTurn s = true := by simp [engineTurn, hq]

/-- While the latency of a command lasts, only WAIT gives the engine its turn (log 2, log 3). -/
theorem engineTurn_of_latency {x : HostAction} {rest : List HostAction} (hq : s.hostQueue = x :: rest) (hx : x ≠ .wait)
    (hlatency : s.pollsLeft ≠ 0) : engineTurn s = false := by
  cases x with
  | wait => exact absurd rfl hx
  | _ => simp [engineTurn, hq, hlatency]

end engine

/-- Settles O34: the decoder's two checks in order, how a command ends, and whose step it is. -/
theorem engineStepFollowsRule : Obligations.EngineStepFollowsRule := by
  refine ⟨fun s w => ⟨fun hopc => ?illegal, fun o hopc harg => ?badArg, fun o hopc harg => ?performed,
    fun t => engineStep_pending⟩, fun s t i => exec_next_ending,
    fun s w hp hq => step_eq_engineStep hp (engineTurn_of_idle hq), fun s => step_eq_hostStep⟩
  case illegal => exact engineStep_of_error (decode_of_unassigned hopc) s
  case badArg => exact engineStep_of_error (decode_of_reserved (Opcode.ofByte_eq_some_iff.1 hopc) harg) s
  case performed =>
    have hlegal := word_and_mask_eq_pattern_iff.2 ⟨Opcode.ofByte_eq_some_iff.1 hopc, harg⟩
    exact engineStep_of_ok (decode_of_legal hlegal) s

/-- Settles O35: it is the engine's turn, and the engine step executes what the word decodes to. -/
theorem stepRunsDecodedCommand : Obligations.StepRunsDecodedCommand := fun s _ _ hp ht hd _ =>
  (step_eq_engineStep hp ht).trans (engineStep_of_ok hd s)

/-! STATUS and CMD (10_state.md R18, R19). -/

section status
variable (s : State)

theorem status_pktValid : s.status.getLsbD 3 = s.pktValid :=
  calc s.status.getLsbD 3
    _ = _ := getLsbD_append_ofBool_succ _ s.busy 2
    _ = _ := getLsbD_append_ofBool_succ _ s.hdrValid 1
    _ = _ := getLsbD_append_ofBool_succ _ s.planValid 0
    _ = s.pktValid := getLsbD_append_ofBool_zero _ _

/-- STATUS above its five low flags. -/
theorem status_getLsbD_add_five (k : Nat) :
    s.status.getLsbD (5 + k) = (0#16 ++ s.errCode ++ BitVec.ofBool s.errSticky ++ 0#2).getLsbD k := by
  rw [Nat.add_comm]
  calc s.status.getLsbD (k + 5)
    _ = _ := getLsbD_append_ofBool_succ _ s.busy (k + 4)
    _ = _ := getLsbD_append_ofBool_succ _ s.hdrValid (k + 3)
    _ = _ := getLsbD_append_ofBool_succ _ s.planValid (k + 2)
    _ = _ := getLsbD_append_ofBool_succ _ s.pktValid (k + 1)
    _ = _ := getLsbD_append_ofBool_succ _ s.fnTrunc k

theorem status_reserved_low : s.status.extractLsb' 5 2 = 0#2 := by
  refine BitVec.eq_of_getLsbD_eq fun k hk => ?_
  rw [BitVec.getLsbD_extractLsb', status_getLsbD_add_five, BitVec.getLsbD_append]
  simp [hk]

theorem status_errSticky : s.status.getLsbD 7 = s.errSticky := by
  calc s.status.getLsbD (5 + 2)
    _ = (0#16 ++ s.errCode ++ BitVec.ofBool s.errSticky).getLsbD 0 := by
      rw [status_getLsbD_add_five, BitVec.getLsbD_append]; rfl
    _ = s.errSticky := getLsbD_append_ofBool_zero _ _

/-- STATUS from bit 8 up is ERR_CODE and the upper reserved half. -/
theorem status_getLsbD_add_eight (k : Nat) : s.status.getLsbD (8 + k) = (0#16 ++ s.errCode).getLsbD k := by
  calc s.status.getLsbD (8 + k)
    _ = s.status.getLsbD (5 + (k + 1 + 2)) := congrArg s.status.getLsbD (by omega)
    _ = (0#16 ++ s.errCode ++ BitVec.ofBool s.errSticky).getLsbD (k + 1) := by
      rw [status_getLsbD_add_five, BitVec.getLsbD_append, if_neg (by omega), Nat.add_sub_cancel]
    _ = (0#16 ++ s.errCode).getLsbD k := getLsbD_append_ofBool_succ _ s.errSticky k

theorem status_errCode : s.status.extractLsb' 8 8 = s.errCode := by
  refine BitVec.eq_of_getLsbD_eq fun k hk => ?_
  rw [BitVec.getLsbD_extractLsb', status_getLsbD_add_eight, BitVec.getLsbD_append]
  simp [hk]

theorem status_reserved_high : s.status.extractLsb' 16 16 = 0#16 := by
  refine BitVec.eq_of_getLsbD_eq fun k hk => ?_
  rw [BitVec.getLsbD_extractLsb', show 16 + k = 8 + (8 + k) by omega, status_getLsbD_add_eight, BitVec.getLsbD_append]
  simp

theorem status_planValid_iff : s.status.getLsbD 2 = true ↔ s.plan.mode ≠ 0 := by
  rw [status_planValid, State.planValid, bne_iff_ne]

/-- A write to STATUS clears ERR_STICKY where bit 7 is 1 (10_state.md R19). -/
theorem writeStatus_eq (v : BitVec 32) :
    writeStatus v s = { s with errSticky := if v.getLsbD 7 then false else s.errSticky } := by
  have hclear (b : Bool) : (s.errSticky && !b) = if b then false else s.errSticky := by cases b <;> simp
  rw [writeStatus, hclear]

/-- STATUS is read whether the block is busy or not (70_reset_and_hazards.md R121). -/
theorem hostRead_status : hostRead 0x000008 4 s = .ok (.word s.status) := by
  have hf : hostFault true 0x000008 4 s = none :=
    hostFault_eq_none_iff.2 ⟨fun _ => isStatusRead_iff.2 ⟨rfl, rfl⟩, .inr rfl, fun _ => by decide, by decide⟩
  exact hostRead_reg hf (by decide)

end status

/-- Settles O40: the bits of the word one field at a time, and STATUS's rows of the register map. -/
theorem statusBitsAndWrite : Obligations.StatusBitsAndWrite := by
  refine ⟨fun s => ⟨status_busy s, status_hdrValid s, status_planValid_iff s, status_pktValid s, status_fnTrunc s,
    status_reserved_low s, status_errSticky s, status_errCode s, status_reserved_high s⟩, fun s v hb => ?_, hostRead_status⟩
  rw [← writeStatus_eq]
  exact hostWrite_register .status v hb

/-! Accesses refused while BUSY (70_reset_and_hazards.md R121). -/

section busy
variable {s : State} {a : Addr} {size : Nat}

theorem hostWrite_of_busy (v : BitVec 32) (hb : s.busy = true) : hostWrite a size v s = .error .busyAccess :=
  hostWrite_of_fault (if_pos (by rw [hb]; rfl))

theorem hostRead_of_busy (hb : s.busy = true) (h : ¬ (size = 4 ∧ a = 0x000008)) :
    hostRead a size s = .error .busyAccess := by
  have hstatus : isStatusRead true a size = false := Bool.eq_false_iff.2 (mt isStatusRead_iff.1 h)
  exact hostRead_of_fault (if_pos (by rw [hb, hstatus]; rfl))

theorem hostFault_badSize {isRead : Bool} (hb : s.busy = false) (h1 : size ≠ 1) (h4 : size ≠ 4) :
    hostFault isRead a size s = some .badSize := by
  simp [hostFault, hb, h1, h4]

theorem busy_of_pending {w : BitVec 32} (h : s.pending = some w) : s.busy = true := by rw [busy_eq, h]; rfl

end busy

/-- Settles O41: the write is `latchCommand`, which raises BUSY, and the engine has the turn once the host is done. -/
theorem cmdWriteLatchesCommand : Obligations.CmdWriteLatchesCommand := by
  refine ⟨fun s v hb => ⟨latchCommand v s, hostWrite_register .cmd v hb, rfl, status_busy _, rfl,
    fun hq => step_eq_engineStep rfl (engineTurn_of_idle hq)⟩, fun s v => hostWrite_of_busy v,
    fun s => hostRead_register .cmd, rfl⟩

/-- Settles O60: outside the windows a byte reads 0 and a write is ignored; the refusals are `hostFault`'s checks in its order. -/
theorem openHostAccessesFollowLogs : Obligations.OpenHostAccessesFollowLogs := by
  refine ⟨fun s a v hb hlo hhi => ⟨?_, hostWrite_ignored (hostFault_byte hb (by omega)) (by omega) hhi⟩,
    fun s a size v hb => ⟨hostWrite_of_busy v hb, hostRead_of_busy hb⟩,
    fun s a size v hb h1 h4 => ⟨hostRead_of_fault (hostFault_badSize hb h1 h4), hostWrite_of_fault (hostFault_badSize hb h1 h4)⟩,
    fun s a hb hal => hostRead_of_fault (hostFault_misaligned hb hal)⟩
  exact (hostRead_byte_eq_ok_iff hb (by omega)).2 (windowByte_reserved hlo hhi)

/-! Polling a latched command (70_reset_and_hazards.md R121, R122). -/

section polling
variable {s : State} {w : BitVec 32} {rest : List HostAction}

/-- While the latency lasts, a poll is the step: it reads STATUS and uses up one access of the latency. -/
theorem step_poll (hq : s.hostQueue = .read 0x000008 4 :: rest) (hlatency : s.pollsLeft ≠ 0) :
    step s = .next (recordRead (.word s.status) { s with hostQueue := rest }) :=
  (step_eq_hostStep_of_wait (engineTurn_of_latency hq nofun hlatency)).trans (hostStep_read_ok hq (hostRead_status s))

theorem run_succ_of_step {k : Nat} {t : State} (h : step s = .next t) :
    Host.Core.run Sys2Proof.core (k + 1) s = Host.Core.run Sys2Proof.core k t := by
  have hcore : Sys2Proof.core.step s = .next t := h
  simp only [Host.Core.run, hcore]

/-- Two runs that each leave the block as it was leave it so together. -/
theorem withHostOf_trans {t u : State} (hu : u.withHostOf s = s) (ht : t.withHostOf u = u) : t.withHostOf s = s :=
  calc t.withHostOf s
    _ = (t.withHostOf u).withHostOf s := rfl
    _ = s := by rw [ht, hu]

/-- After at most `n` polls the engine has its turn, and the block is as it was. -/
theorem engineTurn_after_polls {n : Nat} (hn : s.pollsLeft = n) (hp : s.pending = some w)
    (hpolls : ∀ x ∈ s.hostQueue, x = .read 0x000008 4 ∨ x = .wait) :
    ∃ k t, k ≤ n ∧ Host.Core.run Sys2Proof.core k s = .next t ∧ t.pending = some w ∧ t.withHostOf s = s ∧
      engineTurn t = true := by
  induction n generalizing s with
  | zero =>
    refine ⟨0, s, Nat.le_refl 0, rfl, hp, rfl, ?_⟩
    unfold engineTurn
    split <;> simp [hn]
  | succ n ih =>
    have hlatency : s.pollsLeft ≠ 0 := by omega
    cases hq : s.hostQueue with
    | nil => exact ⟨0, s, Nat.zero_le _, rfl, hp, rfl, engineTurn_of_idle hq⟩
    | cons x rest =>
      obtain rfl | rfl := hpolls x (hq ▸ List.mem_cons_self)
      · obtain ⟨k, t, hk, hrun, hpt, hblock, hturn⟩ := ih (s := recordRead (.word s.status) { s with hostQueue := rest })
          (by rw [recordRead_pollsLeft, hn, Nat.add_sub_cancel]) hp
          (fun y hy => hpolls y (hq ▸ List.mem_cons_of_mem _ hy))
        exact ⟨k + 1, t, Nat.succ_le_succ hk, (run_succ_of_step (step_poll hq hlatency)).trans hrun, hpt,
          withHostOf_trans (recordRead_withHostOf _ _ _) hblock, hturn⟩
      · exact ⟨0, s, Nat.zero_le _, rfl, hp, rfl, by simp [engineTurn, hq]⟩

end polling

/-- Settles O51: once it is the engine's turn, `engineTurn_after_polls`, the step is the engine's. -/
theorem engineStepFollowsFinitelyManyPolls : Obligations.EngineStepFollowsFinitelyManyPolls := by
  intro s w hp hpolls
  obtain ⟨k, t, hk, hrun, hpt, hblock, hturn⟩ := engineTurn_after_polls rfl hp hpolls
  exact ⟨k, t, hk, hrun, hpt, hblock, step_eq_engineStep hpt hturn⟩

/-- Settles O50: with the latency lasting the step is the host's, and all it may do is `step_poll`. -/
theorem busyAllowsStatusReadsOnly : Obligations.BusyAllowsStatusReadsOnly := by
  refine ⟨fun s w rest hp hlatency => ?busy, fun s rest hp hq => ?idle⟩
  case busy =>
    have hb : s.busy = true := busy_of_pending hp
    have hhost {x : HostAction} (hq : s.hostQueue = x :: rest) (hx : x ≠ .wait) : step s = hostStep s :=
      step_eq_hostStep_of_wait (engineTurn_of_latency hq hx hlatency)
    exact ⟨fun hq => ⟨step_poll hq hlatency, (status_busy s).trans hb⟩,
      fun a size hq h => (hhost hq nofun).trans (hostStep_read_error hq (hostRead_of_busy hb h)),
      fun a size v hq => (hhost hq nofun).trans (hostStep_write_error hq (hostWrite_of_busy v hb))⟩
  case idle =>
    have hb : s.busy = false := by rw [busy_eq, hp]; rfl
    rw [step_eq_hostStep hp]
    simp [hostStep, hq, hb]

/-! The resets (70_reset_and_hazards.md R111). -/

/-- The reset input acts where it is the host's step: with the latch empty, or while a command's latency lasts (log 11). -/
theorem step_powerOn {s : State} {rest : List HostAction} (hq : s.hostQueue = .powerOn :: rest)
    (hturn : s.pending = none ∨ s.pollsLeft ≠ 0) : step s = .next (powerOnReset { s with hostQueue := rest }) := by
  have hhost : step s = hostStep s := by
    obtain hidle | hlatency := hturn
    · exact step_eq_hostStep hidle
    · exact step_eq_hostStep_of_wait (engineTurn_of_latency hq nofun hlatency)
  rw [hhost]
  simp [hostStep, hq]

/-- Settles O52: both resets are `State.reset` but for the host's own fields, and SOFT_RESET but for SRC. -/
theorem resetValues : Obligations.ResetValues :=
  ⟨readReg_reset, rfl, rfl, rfl, Memory.read_nil, rfl, fun _ => rfl, fun _ _ => step_powerOn,
    fun s => ⟨_, exec_softReset s, rfl⟩⟩

end Sys2Proof.Machine
end
